-- ==== Sys2Proof/Word.lean ====
section
/-! DEFINITION. The byte (spec/00_scope.md R10): the unit of the input stream, of the frame assembly buffer, of
frames and of payloads. Wider patterns are `BitVec n` of the width the spec gives the field. -/

namespace Sys2Proof

/-- A byte, an 8-bit value with bit 0 its least significant bit (R10). -/
abbrev Byte := BitVec 8

end Sys2Proof
end

