-- ==== Sys2Proof/Config.lean ====
section
/-! DEFINITION. The parameters of spec/00_scope.md R8. The fixed ones are definitions. The OPEN ones that no block
rule reads (the positions of the two named status flags, `REAL_CONV`) are constants with no body: nothing can be
proved of their values. The OPEN parameter `BUF_MAX` that the block does read is a field of the machine's state that no
step changes (`State.bufMax`), so that every statement holds for every value of it; its default stands here. -/

namespace Sys2Proof.Config

/-- `ESC`, the escape marker (R8, R61; the spec's choice D1). -/
def esc : Byte := 0x10#8

/-- `START`, the start marker (R8, R61; D1). -/
def startMarker : Byte := 0x02#8

/-- `END`, the end marker (R8, R61; D1). -/
def endMarker : Byte := 0x03#8

/-- `NAV_ID`, the registered identifier (R8, R69). -/
def navId : Nat := 224

/-- `NAV_PAYLOAD_LEN` (R8). -/
def navPayloadLen : Nat := 90

/-- `FRAME_OVERHEAD`: two header bytes and the checksum byte (R8). -/
def frameOverhead : Nat := 3

/-- `NAV_FRAME_LEN` (R8). -/
def navFrameLen : Nat := navPayloadLen + frameOverhead

/-- The default of `BUF_MAX` (R8, D2). -/
def defaultBufMax : Nat := 4096

/-- `ORIENT_NOT_SETTLED_BIT` (R8, R212; D18): OPEN, a free value in 0..15. -/
opaque orientNotSettledBit : BitVec 4

/-- How far `POS_INVALID_BIT` lies past `ORIENT_NOT_SETTLED_BIT`, less one, modulo 16: OPEN, a free value. -/
opaque posInvalidDistance : Fin 15

/-- `POS_INVALID_BIT` (R8, R212; D18): OPEN. Any position but `ORIENT_NOT_SETTLED_BIT`, so that equal values, which
93_implementation_defined.md I2 has refused, cannot be expressed. -/
def posInvalidBit : BitVec 4 := orientNotSettledBit + BitVec.ofNat 4 (posInvalidDistance.val + 1)

/-- `REAL_CONV` (R8, R165; D10): OPEN, a free function of the exact rational into a 64-bit host number. No block rule
reads it. The reference conversion is `Machine.binary64Nearest`. -/
opaque realConv : Rat → BitVec 64

end Sys2Proof.Config
end

