-- ==== Sys2Proof/Syntax.lean ====
section
/-! DEFINITION. The syntax: the parser states (spec/10_state.md R21), the byte classes (spec/30_encoding.md R62), the
29 fields of a record (R72), the sites an instruction word is read at, and `Instr`, one constructor per row of
spec/opcode_table.json, in the table's order. -/

namespace Sys2Proof

/-- ParserState (R21). -/
inductive ParserState where
  | idle
  | escapeSeen
  | inFrame
  | inFrameEscapeSeen
deriving DecidableEq, Repr

/-- The class of an input byte (R62): `E`, `S`, `N` and `O`. -/
inductive ByteClass where
  | escape
  | start
  | endMark
  | other
deriving DecidableEq, Repr

/-- The fields of a navigation record, in offset order (R72). -/
inductive Field where
  | timeOfValidity
  | latitudeDegrees
  | longitudeDegrees
  | depthMetres
  | altitudeMetres
  | rollDegrees
  | pitchDegrees
  | headingDegrees
  | velocityNorth
  | velocityEast
  | velocityDown
  | angularRateFwd
  | angularRateStarboard
  | angularRateDown
  | accelerationFwd
  | accelerationStarboard
  | accelerationDown
  | errorEstimate0
  | errorEstimate1
  | errorEstimate2
  | errorEstimate3
  | errorEstimate4
  | errorEstimate5
  | errorEstimate6
  | errorEstimate7
  | errorEstimate8
  | errorEstimate9
  | errorEstimate10
  | statusFlags
deriving DecidableEq, Repr

/-- Where an instruction word is read. Rows of different formats of spec/opcode_table.json share bit patterns, so a
word names a row only together with its site (log 9). -/
inductive Site where
  /-- Before the step row, on any word (R102). -/
  | precheck
  /-- The 10-bit word `w = state * 256 + b` (R63). -/
  | step
  /-- The 16-bit header `h = f[0] * 256 + f[1]` (R69). -/
  | header
  /-- The payload bytes of one field (R72). -/
  | field (f : Field)
  /-- The 4-bit `status_index` port (R210). -/
  | accessor
deriving DecidableEq, Repr

/-- One constructor per row of spec/opcode_table.json. -/
inductive Instr where
  /-- PRECHECK.OVERFLOW (R102). -/
  | precheckOverflow
  /-- IDLE.ESC (R103). -/
  | idleEsc
  /-- IDLE.START (R104). -/
  | idleStart
  /-- IDLE.END (R105). -/
  | idleEnd
  /-- IDLE.OTHER (R106). `b` is the class-O byte. -/
  | idleOther (b : Byte)
  /-- ESCSEEN.ESC (R107). -/
  | escseenEsc
  /-- ESCSEEN.START (R108). -/
  | escseenStart
  /-- ESCSEEN.END (R109). -/
  | escseenEnd
  /-- ESCSEEN.OTHER (R110). `b` is the class-O byte. -/
  | escseenOther (b : Byte)
  /-- INFRAME.ESC (R111). -/
  | inframeEsc
  /-- INFRAME.START (R112). -/
  | inframeStart
  /-- INFRAME.END (R113). -/
  | inframeEnd
  /-- INFRAME.OTHER (R114). `b` is the class-O byte. -/
  | inframeOther (b : Byte)
  /-- INFRAMEESC.ESC (R115). -/
  | inframeescEsc
  /-- INFRAMEESC.START (R116). -/
  | inframeescStart
  /-- INFRAMEESC.END (R117). -/
  | inframeescEnd
  /-- INFRAMEESC.OTHER (R118). `b` is the class-O byte. -/
  | inframeescOther (b : Byte)
  /-- NAV.ACCEPT (R146). `x` is h[15:10], EXT_TIME and the bits not interpreted. -/
  | navAccept (x : BitVec 6)
  /-- HDR.OTHER (R144). `h` is the whole header. -/
  | hdrOther (h : BitVec 16)
  /-- NAV.TimeOfValidity (R166). `v` is the raw field value. -/
  | navTimeOfValidity (v : BitVec 48)
  /-- NAV.LatitudeDegrees (R167). `v` is the raw field value. -/
  | navLatitudeDegrees (v : BitVec 32)
  /-- NAV.LongitudeDegrees (R168). `v` is the raw field value. -/
  | navLongitudeDegrees (v : BitVec 32)
  /-- NAV.DepthMetres (R169). `v` is the raw field value. -/
  | navDepthMetres (v : BitVec 32)
  /-- NAV.AltitudeMetres (R170). `v` is the raw field value. -/
  | navAltitudeMetres (v : BitVec 16)
  /-- NAV.RollDegrees (R171). `v` is the raw field value. -/
  | navRollDegrees (v : BitVec 16)
  /-- NAV.PitchDegrees (R172). `v` is the raw field value. -/
  | navPitchDegrees (v : BitVec 16)
  /-- NAV.HeadingDegrees (R173). `v` is the raw field value. -/
  | navHeadingDegrees (v : BitVec 16)
  /-- NAV.VelocityNorth (R174). `v` is the raw field value. -/
  | navVelocityNorth (v : BitVec 16)
  /-- NAV.VelocityEast (R175). `v` is the raw field value. -/
  | navVelocityEast (v : BitVec 16)
  /-- NAV.VelocityDown (R176). `v` is the raw field value. -/
  | navVelocityDown (v : BitVec 16)
  /-- NAV.AngularRateFwd (R177). `v` is the raw field value. -/
  | navAngularRateFwd (v : BitVec 16)
  /-- NAV.AngularRateStarboard (R178). `v` is the raw field value. -/
  | navAngularRateStarboard (v : BitVec 16)
  /-- NAV.AngularRateDown (R179). `v` is the raw field value. -/
  | navAngularRateDown (v : BitVec 16)
  /-- NAV.AccelerationFwd (R180). `v` is the raw field value. -/
  | navAccelerationFwd (v : BitVec 16)
  /-- NAV.AccelerationStarboard (R181). `v` is the raw field value. -/
  | navAccelerationStarboard (v : BitVec 16)
  /-- NAV.AccelerationDown (R182). `v` is the raw field value. -/
  | navAccelerationDown (v : BitVec 16)
  /-- NAV.ErrorEstimate0 (R183). `v` is the raw field value. -/
  | navErrorEstimate0 (v : BitVec 32)
  /-- NAV.ErrorEstimate1 (R184). `v` is the raw field value. -/
  | navErrorEstimate1 (v : BitVec 32)
  /-- NAV.ErrorEstimate2 (R185). `v` is the raw field value. -/
  | navErrorEstimate2 (v : BitVec 32)
  /-- NAV.ErrorEstimate3 (R186). `v` is the raw field value. -/
  | navErrorEstimate3 (v : BitVec 32)
  /-- NAV.ErrorEstimate4 (R187). `v` is the raw field value. -/
  | navErrorEstimate4 (v : BitVec 32)
  /-- NAV.ErrorEstimate5 (R188). `v` is the raw field value. -/
  | navErrorEstimate5 (v : BitVec 32)
  /-- NAV.ErrorEstimate6 (R189). `v` is the raw field value. -/
  | navErrorEstimate6 (v : BitVec 32)
  /-- NAV.ErrorEstimate7 (R190). `v` is the raw field value. -/
  | navErrorEstimate7 (v : BitVec 32)
  /-- NAV.ErrorEstimate8 (R191). `v` is the raw field value. -/
  | navErrorEstimate8 (v : BitVec 32)
  /-- NAV.ErrorEstimate9 (R192). `v` is the raw field value. -/
  | navErrorEstimate9 (v : BitVec 32)
  /-- NAV.ErrorEstimate10 (R193). `v` is the raw field value. -/
  | navErrorEstimate10 (v : BitVec 32)
  /-- NAV.StatusFlags (R194). `v` is the raw field value. -/
  | navStatusFlags (v : BitVec 16)
  /-- ISSET (R210). `k` is the flag index. -/
  | isset (k : BitVec 4)
deriving DecidableEq, Repr

end Sys2Proof
end

