-- ==== Sys2Proof/WellFormed.lean ====
section
/-! DEFINITION. Well-formed instructions: the operands that some encoding of the row carries. The class-O rows carry a
byte that is no marker (spec/30_encoding.md R62, R63), HDR.OTHER a header whose identifier is not 224
(spec/41_dispatcher.md R144). Every other operand may take any value of its width. -/

namespace Sys2Proof

/-- A byte of class `O` (R62). -/
def otherByte (b : Byte) : Bool :=
  b != Config.esc && b != Config.startMarker && b != Config.endMarker

/-- A header whose identifier, its low 10 bits, is not `NAV_ID` (R69, R144). -/
def otherHeader (h : BitVec 16) : Bool :=
  (h &&& 0x03FF#16) != 0x00E0#16

/-- The operands of `i` are operands that an encoding of its row carries. -/
def Instr.wf : Instr → Bool
  | .precheckOverflow => true
  | .idleEsc => true
  | .idleStart => true
  | .idleEnd => true
  | .idleOther b => otherByte b
  | .escseenEsc => true
  | .escseenStart => true
  | .escseenEnd => true
  | .escseenOther b => otherByte b
  | .inframeEsc => true
  | .inframeStart => true
  | .inframeEnd => true
  | .inframeOther b => otherByte b
  | .inframeescEsc => true
  | .inframeescStart => true
  | .inframeescEnd => true
  | .inframeescOther b => otherByte b
  | .navAccept _ => true
  | .hdrOther h => otherHeader h
  | .navTimeOfValidity _ => true
  | .navLatitudeDegrees _ => true
  | .navLongitudeDegrees _ => true
  | .navDepthMetres _ => true
  | .navAltitudeMetres _ => true
  | .navRollDegrees _ => true
  | .navPitchDegrees _ => true
  | .navHeadingDegrees _ => true
  | .navVelocityNorth _ => true
  | .navVelocityEast _ => true
  | .navVelocityDown _ => true
  | .navAngularRateFwd _ => true
  | .navAngularRateStarboard _ => true
  | .navAngularRateDown _ => true
  | .navAccelerationFwd _ => true
  | .navAccelerationStarboard _ => true
  | .navAccelerationDown _ => true
  | .navErrorEstimate0 _ => true
  | .navErrorEstimate1 _ => true
  | .navErrorEstimate2 _ => true
  | .navErrorEstimate3 _ => true
  | .navErrorEstimate4 _ => true
  | .navErrorEstimate5 _ => true
  | .navErrorEstimate6 _ => true
  | .navErrorEstimate7 _ => true
  | .navErrorEstimate8 _ => true
  | .navErrorEstimate9 _ => true
  | .navErrorEstimate10 _ => true
  | .navStatusFlags _ => true
  | .isset _ => true

end Sys2Proof
end

