-- ==== Sys2Proof/Decode.lean ====
section
/-! DEFINITION. Encodings (spec/30_encoding.md): byte classes, the 2-bit code of the parser state, the step word and
its map (R62 to R64), the frame header (R69), the payload layout (R72), little-endian assembly (spec/00_scope.md R13),
the decoder, and after it the encoder. `decode` is total on any bytes at any site and rejects by name. -/

namespace Sys2Proof

/-- Why the decoder refuses bytes. -/
inductive Reject where
  /-- Not the number of bytes the site's word has. -/
  | wrongLength
  /-- A step word of two bytes with a bit above bit 9 set (R63). -/
  | stateBitsOutOfRange
  /-- A flag index outside 0..15 (spec/43_status_accessor.md R211). -/
  | flagIndexOutOfRange
deriving DecidableEq, Repr

/-- The class of a byte (R62). -/
def classify (b : Byte) : ByteClass :=
  if b = Config.esc then .escape
  else if b = Config.startMarker then .start
  else if b = Config.endMarker then .endMark
  else .other

/-- The 2-bit encoding of the parser state (R21): bit 1 is in-frame, bit 0 is escape-pending. -/
def ParserState.code : ParserState → BitVec 2
  | .idle => 0b00#2
  | .escapeSeen => 0b01#2
  | .inFrame => 0b10#2
  | .inFrameEscapeSeen => 0b11#2

/-- The parser state of a 2-bit pattern. Every pattern is a legal state (R21). -/
def ParserState.ofCode (c : BitVec 2) : ParserState :=
  if c = 0b00#2 then .idle
  else if c = 0b01#2 then .escapeSeen
  else if c = 0b10#2 then .inFrame
  else .inFrameEscapeSeen

/-- The decode word of a step, `w = state * 256 + b` (R63). -/
def stepWord (p : ParserState) (b : Byte) : BitVec 10 := p.code ++ b

/-- The opcode map (R64): the row of a step word. -/
def decodeStep (w : BitVec 10) : Instr :=
  let b : Byte := w.extractLsb' 0 8
  match ParserState.ofCode (w.extractLsb' 8 2), classify b with
  | .idle, .escape => .idleEsc
  | .idle, .start => .idleStart
  | .idle, .endMark => .idleEnd
  | .idle, .other => .idleOther b
  | .escapeSeen, .escape => .escseenEsc
  | .escapeSeen, .start => .escseenStart
  | .escapeSeen, .endMark => .escseenEnd
  | .escapeSeen, .other => .escseenOther b
  | .inFrame, .escape => .inframeEsc
  | .inFrame, .start => .inframeStart
  | .inFrame, .endMark => .inframeEnd
  | .inFrame, .other => .inframeOther b
  | .inFrameEscapeSeen, .escape => .inframeescEsc
  | .inFrameEscapeSeen, .start => .inframeescStart
  | .inFrameEscapeSeen, .endMark => .inframeescEnd
  | .inFrameEscapeSeen, .other => .inframeescOther b

/-- One row of the step format of spec/opcode_table.json (R63): the word's bits under the mask, the priority (the least
wins), and the instruction the row is, of the word's byte. -/
structure StepRow where
  /-- The table's `match`. -/
  bits : BitVec 10
  /-- The table's `mask`. -/
  mask : BitVec 10
  /-- The table's `priority`. -/
  priority : Nat
  /-- The row's instruction. -/
  instr : Byte → Instr

/-- A word matches a row under the row's mask (R63). -/
def StepRow.matches (r : StepRow) (w : BitVec 10) : Bool := (w &&& r.mask) == r.bits

/-- The rows of the step format of spec/opcode_table.json (R63), in its order. -/
def stepRows : List StepRow :=
  [⟨0x010#10, 0x3ff#10, 0, fun _ => .idleEsc⟩, ⟨0x002#10, 0x3ff#10, 0, fun _ => .idleStart⟩,
   ⟨0x003#10, 0x3ff#10, 0, fun _ => .idleEnd⟩, ⟨0x000#10, 0x300#10, 1, .idleOther⟩,
   ⟨0x110#10, 0x3ff#10, 0, fun _ => .escseenEsc⟩, ⟨0x102#10, 0x3ff#10, 0, fun _ => .escseenStart⟩,
   ⟨0x103#10, 0x3ff#10, 0, fun _ => .escseenEnd⟩, ⟨0x100#10, 0x300#10, 1, .escseenOther⟩,
   ⟨0x210#10, 0x3ff#10, 0, fun _ => .inframeEsc⟩, ⟨0x202#10, 0x3ff#10, 0, fun _ => .inframeStart⟩,
   ⟨0x203#10, 0x3ff#10, 0, fun _ => .inframeEnd⟩, ⟨0x200#10, 0x300#10, 1, .inframeOther⟩,
   ⟨0x310#10, 0x3ff#10, 0, fun _ => .inframeescEsc⟩, ⟨0x302#10, 0x3ff#10, 0, fun _ => .inframeescStart⟩,
   ⟨0x303#10, 0x3ff#10, 0, fun _ => .inframeescEnd⟩, ⟨0x300#10, 0x300#10, 1, .inframeescOther⟩]

/-- The header has the registered identifier: it matches 0x00E0 under the mask 0x03FF (R69). -/
def isNavHeader (h : BitVec 16) : Bool := (h &&& 0x03FF#16) == 0x00E0#16

/-- The EXT_TIME bit and the bits not interpreted, h[15:10] (R67). -/
def headerIgnored (h : BitVec 16) : BitVec 6 := h.extractLsb' 10 6

/-- The row of a frame header (R69): NAV.ACCEPT, else HDR.OTHER. -/
def decodeHeader (h : BitVec 16) : Instr :=
  if isNavHeader h then .navAccept (headerIgnored h) else .hdrOther h

/-- The row of a `status_index` (R210). -/
def decodeAccessor (k : BitVec 4) : Instr := .isset k

/-- Little-endian assembly `le(s)` (R13): the first byte is least significant. -/
def le : List Byte → Nat
  | [] => 0
  | b :: bs => b.toNat + 256 * le bs

/-- The `n` bytes of `v`, least significant first: `le` read backwards. -/
def leBytes : Nat → Nat → List Byte
  | 0, _ => []
  | n + 1, v => BitVec.ofNat 8 v :: leBytes n (v / 256)

/-- Offset of a field in the payload (R72). -/
def Field.offset : Field → Nat
  | .timeOfValidity => 0
  | .latitudeDegrees => 6
  | .longitudeDegrees => 10
  | .depthMetres => 14
  | .altitudeMetres => 18
  | .rollDegrees => 20
  | .pitchDegrees => 22
  | .headingDegrees => 24
  | .velocityNorth => 26
  | .velocityEast => 28
  | .velocityDown => 30
  | .angularRateFwd => 32
  | .angularRateStarboard => 34
  | .angularRateDown => 36
  | .accelerationFwd => 38
  | .accelerationStarboard => 40
  | .accelerationDown => 42
  | .errorEstimate0 => 44
  | .errorEstimate1 => 48
  | .errorEstimate2 => 52
  | .errorEstimate3 => 56
  | .errorEstimate4 => 60
  | .errorEstimate5 => 64
  | .errorEstimate6 => 68
  | .errorEstimate7 => 72
  | .errorEstimate8 => 76
  | .errorEstimate9 => 80
  | .errorEstimate10 => 84
  | .statusFlags => 88

/-- Width of a field in bytes (R72). -/
def Field.width : Field → Nat
  | .timeOfValidity => 6
  | .latitudeDegrees => 4
  | .longitudeDegrees => 4
  | .depthMetres => 4
  | .altitudeMetres => 2
  | .rollDegrees => 2
  | .pitchDegrees => 2
  | .headingDegrees => 2
  | .velocityNorth => 2
  | .velocityEast => 2
  | .velocityDown => 2
  | .angularRateFwd => 2
  | .angularRateStarboard => 2
  | .angularRateDown => 2
  | .accelerationFwd => 2
  | .accelerationStarboard => 2
  | .accelerationDown => 2
  | .errorEstimate0 => 4
  | .errorEstimate1 => 4
  | .errorEstimate2 => 4
  | .errorEstimate3 => 4
  | .errorEstimate4 => 4
  | .errorEstimate5 => 4
  | .errorEstimate6 => 4
  | .errorEstimate7 => 4
  | .errorEstimate8 => 4
  | .errorEstimate9 => 4
  | .errorEstimate10 => 4
  | .statusFlags => 2

/-- The fields in offset order (R72). -/
def Field.all : List Field :=
  [.timeOfValidity, .latitudeDegrees, .longitudeDegrees, .depthMetres,
   .altitudeMetres, .rollDegrees, .pitchDegrees, .headingDegrees,
   .velocityNorth, .velocityEast, .velocityDown, .angularRateFwd,
   .angularRateStarboard, .angularRateDown, .accelerationFwd, .accelerationStarboard,
   .accelerationDown, .errorEstimate0, .errorEstimate1, .errorEstimate2,
   .errorEstimate3, .errorEstimate4, .errorEstimate5, .errorEstimate6,
   .errorEstimate7, .errorEstimate8, .errorEstimate9, .errorEstimate10,
   .statusFlags]

/-- The row of a field, its operand the little-endian number of `bytes` (R73, R161 to R163). -/
def fieldInstr (f : Field) (bytes : List Byte) : Instr :=
  match f with
  | .timeOfValidity => .navTimeOfValidity (BitVec.ofNat 48 (le bytes))
  | .latitudeDegrees => .navLatitudeDegrees (BitVec.ofNat 32 (le bytes))
  | .longitudeDegrees => .navLongitudeDegrees (BitVec.ofNat 32 (le bytes))
  | .depthMetres => .navDepthMetres (BitVec.ofNat 32 (le bytes))
  | .altitudeMetres => .navAltitudeMetres (BitVec.ofNat 16 (le bytes))
  | .rollDegrees => .navRollDegrees (BitVec.ofNat 16 (le bytes))
  | .pitchDegrees => .navPitchDegrees (BitVec.ofNat 16 (le bytes))
  | .headingDegrees => .navHeadingDegrees (BitVec.ofNat 16 (le bytes))
  | .velocityNorth => .navVelocityNorth (BitVec.ofNat 16 (le bytes))
  | .velocityEast => .navVelocityEast (BitVec.ofNat 16 (le bytes))
  | .velocityDown => .navVelocityDown (BitVec.ofNat 16 (le bytes))
  | .angularRateFwd => .navAngularRateFwd (BitVec.ofNat 16 (le bytes))
  | .angularRateStarboard => .navAngularRateStarboard (BitVec.ofNat 16 (le bytes))
  | .angularRateDown => .navAngularRateDown (BitVec.ofNat 16 (le bytes))
  | .accelerationFwd => .navAccelerationFwd (BitVec.ofNat 16 (le bytes))
  | .accelerationStarboard => .navAccelerationStarboard (BitVec.ofNat 16 (le bytes))
  | .accelerationDown => .navAccelerationDown (BitVec.ofNat 16 (le bytes))
  | .errorEstimate0 => .navErrorEstimate0 (BitVec.ofNat 32 (le bytes))
  | .errorEstimate1 => .navErrorEstimate1 (BitVec.ofNat 32 (le bytes))
  | .errorEstimate2 => .navErrorEstimate2 (BitVec.ofNat 32 (le bytes))
  | .errorEstimate3 => .navErrorEstimate3 (BitVec.ofNat 32 (le bytes))
  | .errorEstimate4 => .navErrorEstimate4 (BitVec.ofNat 32 (le bytes))
  | .errorEstimate5 => .navErrorEstimate5 (BitVec.ofNat 32 (le bytes))
  | .errorEstimate6 => .navErrorEstimate6 (BitVec.ofNat 32 (le bytes))
  | .errorEstimate7 => .navErrorEstimate7 (BitVec.ofNat 32 (le bytes))
  | .errorEstimate8 => .navErrorEstimate8 (BitVec.ofNat 32 (le bytes))
  | .errorEstimate9 => .navErrorEstimate9 (BitVec.ofNat 32 (le bytes))
  | .errorEstimate10 => .navErrorEstimate10 (BitVec.ofNat 32 (le bytes))
  | .statusFlags => .navStatusFlags (BitVec.ofNat 16 (le bytes))

/-- The decoder: the instruction that the bytes at a site are, or a refusal by name. A step word is two bytes, `b` and
the state; a header is `f[0]` and `f[1]`; a field is its payload bytes; the accessor word is one byte. -/
def decode (site : Site) (bytes : List Byte) : Except Reject Instr :=
  match site with
  | .precheck => .ok .precheckOverflow
  | .step =>
    match bytes with
    | [b, st] => if st.toNat < 4 then .ok (decodeStep (st.extractLsb' 0 2 ++ b)) else .error .stateBitsOutOfRange
    | _ => .error .wrongLength
  | .header =>
    match bytes with
    | [h0, h1] => .ok (decodeHeader (h0 ++ h1))
    | _ => .error .wrongLength
  | .field f => if bytes.length = f.width then .ok (fieldInstr f bytes) else .error .wrongLength
  | .accessor =>
    match bytes with
    | [k] => if k.toNat < 16 then .ok (decodeAccessor (k.extractLsb' 0 4)) else .error .flagIndexOutOfRange
    | _ => .error .wrongLength

/-- The site an instruction's word is read at. -/
def Instr.site : Instr → Site
  | .precheckOverflow => .precheck
  | .idleEsc => .step
  | .idleStart => .step
  | .idleEnd => .step
  | .idleOther _ => .step
  | .escseenEsc => .step
  | .escseenStart => .step
  | .escseenEnd => .step
  | .escseenOther _ => .step
  | .inframeEsc => .step
  | .inframeStart => .step
  | .inframeEnd => .step
  | .inframeOther _ => .step
  | .inframeescEsc => .step
  | .inframeescStart => .step
  | .inframeescEnd => .step
  | .inframeescOther _ => .step
  | .navAccept _ => .header
  | .hdrOther _ => .header
  | .navTimeOfValidity _ => .field .timeOfValidity
  | .navLatitudeDegrees _ => .field .latitudeDegrees
  | .navLongitudeDegrees _ => .field .longitudeDegrees
  | .navDepthMetres _ => .field .depthMetres
  | .navAltitudeMetres _ => .field .altitudeMetres
  | .navRollDegrees _ => .field .rollDegrees
  | .navPitchDegrees _ => .field .pitchDegrees
  | .navHeadingDegrees _ => .field .headingDegrees
  | .navVelocityNorth _ => .field .velocityNorth
  | .navVelocityEast _ => .field .velocityEast
  | .navVelocityDown _ => .field .velocityDown
  | .navAngularRateFwd _ => .field .angularRateFwd
  | .navAngularRateStarboard _ => .field .angularRateStarboard
  | .navAngularRateDown _ => .field .angularRateDown
  | .navAccelerationFwd _ => .field .accelerationFwd
  | .navAccelerationStarboard _ => .field .accelerationStarboard
  | .navAccelerationDown _ => .field .accelerationDown
  | .navErrorEstimate0 _ => .field .errorEstimate0
  | .navErrorEstimate1 _ => .field .errorEstimate1
  | .navErrorEstimate2 _ => .field .errorEstimate2
  | .navErrorEstimate3 _ => .field .errorEstimate3
  | .navErrorEstimate4 _ => .field .errorEstimate4
  | .navErrorEstimate5 _ => .field .errorEstimate5
  | .navErrorEstimate6 _ => .field .errorEstimate6
  | .navErrorEstimate7 _ => .field .errorEstimate7
  | .navErrorEstimate8 _ => .field .errorEstimate8
  | .navErrorEstimate9 _ => .field .errorEstimate9
  | .navErrorEstimate10 _ => .field .errorEstimate10
  | .navStatusFlags _ => .field .statusFlags
  | .isset _ => .accessor

/-- How many bytes the encoder writes for a site's word. -/
def Site.width : Site → Nat
  | .precheck => 2
  | .step => 2
  | .header => 2
  | .field f => f.width
  | .accessor => 1

/-- The two bytes of a step word: `b`, then the state in the low bits (R63). -/
def encodeStep (p : ParserState) (b : Byte) : List Byte := [b, p.code.setWidth 8]

/-- The two bytes of a header, `f[0]` then `f[1]` (R66). -/
def encodeHeader (h : BitVec 16) : List Byte := [h.extractLsb' 8 8, h.extractLsb' 0 8]

/-- The encoder: the word of a well-formed instruction, as bytes, written from the tables of R63, R69, R72 and R210. The
precheck row matches any word (mask 0x000); its match 0x000 is written. -/
def encode : Instr → List Byte
  | .precheckOverflow => encodeStep .idle 0#8
  | .idleEsc => encodeStep .idle Config.esc
  | .idleStart => encodeStep .idle Config.startMarker
  | .idleEnd => encodeStep .idle Config.endMarker
  | .idleOther b => encodeStep .idle b
  | .escseenEsc => encodeStep .escapeSeen Config.esc
  | .escseenStart => encodeStep .escapeSeen Config.startMarker
  | .escseenEnd => encodeStep .escapeSeen Config.endMarker
  | .escseenOther b => encodeStep .escapeSeen b
  | .inframeEsc => encodeStep .inFrame Config.esc
  | .inframeStart => encodeStep .inFrame Config.startMarker
  | .inframeEnd => encodeStep .inFrame Config.endMarker
  | .inframeOther b => encodeStep .inFrame b
  | .inframeescEsc => encodeStep .inFrameEscapeSeen Config.esc
  | .inframeescStart => encodeStep .inFrameEscapeSeen Config.startMarker
  | .inframeescEnd => encodeStep .inFrameEscapeSeen Config.endMarker
  | .inframeescOther b => encodeStep .inFrameEscapeSeen b
  | .navAccept x => encodeHeader (x ++ 0x0E0#10)
  | .hdrOther h => encodeHeader h
  | .navTimeOfValidity v => leBytes 6 v.toNat
  | .navLatitudeDegrees v => leBytes 4 v.toNat
  | .navLongitudeDegrees v => leBytes 4 v.toNat
  | .navDepthMetres v => leBytes 4 v.toNat
  | .navAltitudeMetres v => leBytes 2 v.toNat
  | .navRollDegrees v => leBytes 2 v.toNat
  | .navPitchDegrees v => leBytes 2 v.toNat
  | .navHeadingDegrees v => leBytes 2 v.toNat
  | .navVelocityNorth v => leBytes 2 v.toNat
  | .navVelocityEast v => leBytes 2 v.toNat
  | .navVelocityDown v => leBytes 2 v.toNat
  | .navAngularRateFwd v => leBytes 2 v.toNat
  | .navAngularRateStarboard v => leBytes 2 v.toNat
  | .navAngularRateDown v => leBytes 2 v.toNat
  | .navAccelerationFwd v => leBytes 2 v.toNat
  | .navAccelerationStarboard v => leBytes 2 v.toNat
  | .navAccelerationDown v => leBytes 2 v.toNat
  | .navErrorEstimate0 v => leBytes 4 v.toNat
  | .navErrorEstimate1 v => leBytes 4 v.toNat
  | .navErrorEstimate2 v => leBytes 4 v.toNat
  | .navErrorEstimate3 v => leBytes 4 v.toNat
  | .navErrorEstimate4 v => leBytes 4 v.toNat
  | .navErrorEstimate5 v => leBytes 4 v.toNat
  | .navErrorEstimate6 v => leBytes 4 v.toNat
  | .navErrorEstimate7 v => leBytes 4 v.toNat
  | .navErrorEstimate8 v => leBytes 4 v.toNat
  | .navErrorEstimate9 v => leBytes 4 v.toNat
  | .navErrorEstimate10 v => leBytes 4 v.toNat
  | .navStatusFlags v => leBytes 2 v.toNat
  | .isset k => [k.setWidth 8]

/-- The site of a table word of `nbits` bits. The table's formats share bit patterns and its `match` gives no site: this
is the model's choice (log 9). No bits is the precheck; at most 8 the accessor; at most 16 the NAV.ACCEPT header
where the low 10 bits are its match, else a step word where the word has 10 bits, else another header; at most 32 and
at most 48 the table's first field of that width. -/
def tableSite (nbits w : Nat) : Option Site :=
  if nbits = 0 then some .precheck
  else if nbits ≤ 8 then some .accessor
  else if nbits ≤ 16 then
    if w % 1024 = 0x0E0 then some .header else if w < 1024 then some .step else some .header
  else if nbits ≤ 32 then some (.field .latitudeDegrees)
  else if nbits ≤ 48 then some (.field .timeOfValidity)
  else none

/-- The bytes of a table word at its site: a header is high byte first, every other word low byte first. -/
def tableBytes (site : Site) (w : Nat) : List Byte :=
  match site with
  | .header => (leBytes 2 w).reverse
  | other => leBytes other.width w

/-- The instruction the decoder reads from a word of spec/opcode_table.json. -/
def decodeTableWord (nbits w : Nat) : Option Instr :=
  match tableSite nbits w with
  | none => none
  | some site =>
    match decode site (tableBytes site w) with
    | .ok i => some i
    | .error _ => none

end Sys2Proof
end

