-- ==== Sys2Proof/Machine/State.lean ====
section
/-! DEFINITION. The machine's state as plain data: the block's four elements (spec/10_state.md R20), the values that
exist only inside the step that completes a frame (R31), `BUF_MAX` (spec/00_scope.md R8), and the model's own host side
(spec/60_exceptions.md R221, R231). Faults, refusals, and the state after reset (R33, R250). -/

namespace Sys2Proof.Machine

/-- The frame assembly buffer (R23): an ordered sequence of bytes, indices `0 .. len-1` (spec/20_memory.md R40). A list in
index order is its own canonical form: equal buffers are equal lists (log 8). -/
abbrev Memory := List Byte

/-- NavigationState, the output record: 29 raw field values as bit patterns, 720 bits in all (R28, R72). -/
structure Record where
  /-- TimeOfValidity (R166). -/
  timeOfValidity : BitVec 48
  /-- LatitudeDegrees (R167). -/
  latitudeDegrees : BitVec 32
  /-- LongitudeDegrees (R168). -/
  longitudeDegrees : BitVec 32
  /-- DepthMetres (R169). -/
  depthMetres : BitVec 32
  /-- AltitudeMetres (R170). -/
  altitudeMetres : BitVec 16
  /-- RollDegrees (R171). -/
  rollDegrees : BitVec 16
  /-- PitchDegrees (R172). -/
  pitchDegrees : BitVec 16
  /-- HeadingDegrees (R173). -/
  headingDegrees : BitVec 16
  /-- VelocityNorth (R174). -/
  velocityNorth : BitVec 16
  /-- VelocityEast (R175). -/
  velocityEast : BitVec 16
  /-- VelocityDown (R176). -/
  velocityDown : BitVec 16
  /-- AngularRateFwd (R177). -/
  angularRateFwd : BitVec 16
  /-- AngularRateStarboard (R178). -/
  angularRateStarboard : BitVec 16
  /-- AngularRateDown (R179). -/
  angularRateDown : BitVec 16
  /-- AccelerationFwd (R180). -/
  accelerationFwd : BitVec 16
  /-- AccelerationStarboard (R181). -/
  accelerationStarboard : BitVec 16
  /-- AccelerationDown (R182). -/
  accelerationDown : BitVec 16
  /-- ErrorEstimate0 (R183). -/
  errorEstimate0 : BitVec 32
  /-- ErrorEstimate1 (R184). -/
  errorEstimate1 : BitVec 32
  /-- ErrorEstimate2 (R185). -/
  errorEstimate2 : BitVec 32
  /-- ErrorEstimate3 (R186). -/
  errorEstimate3 : BitVec 32
  /-- ErrorEstimate4 (R187). -/
  errorEstimate4 : BitVec 32
  /-- ErrorEstimate5 (R188). -/
  errorEstimate5 : BitVec 32
  /-- ErrorEstimate6 (R189). -/
  errorEstimate6 : BitVec 32
  /-- ErrorEstimate7 (R190). -/
  errorEstimate7 : BitVec 32
  /-- ErrorEstimate8 (R191). -/
  errorEstimate8 : BitVec 32
  /-- ErrorEstimate9 (R192). -/
  errorEstimate9 : BitVec 32
  /-- ErrorEstimate10 (R193). -/
  errorEstimate10 : BitVec 32
  /-- StatusFlags (R194). -/
  statusFlags : BitVec 16
deriving DecidableEq, Repr

/-- The record with every pattern zero: what `work` holds at an event boundary (DESIGN CHOICE, log 7). -/
def Record.blank : Record where
  timeOfValidity := 0
  latitudeDegrees := 0
  longitudeDegrees := 0
  depthMetres := 0
  altitudeMetres := 0
  rollDegrees := 0
  pitchDegrees := 0
  headingDegrees := 0
  velocityNorth := 0
  velocityEast := 0
  velocityDown := 0
  angularRateFwd := 0
  angularRateStarboard := 0
  angularRateDown := 0
  accelerationFwd := 0
  accelerationStarboard := 0
  accelerationDown := 0
  errorEstimate0 := 0
  errorEstimate1 := 0
  errorEstimate2 := 0
  errorEstimate3 := 0
  errorEstimate4 := 0
  errorEstimate5 := 0
  errorEstimate6 := 0
  errorEstimate7 := 0
  errorEstimate8 := 0
  errorEstimate9 := 0
  errorEstimate10 := 0
  statusFlags := 0

/-- The discard labels (R221). They stand in the model's trace only. -/
inductive Discard where
  /-- A byte arrived with `len(buf) > BUF_MAX` (R102). -/
  | overflow
  /-- `ESC` followed by a byte of class `O` (R110, R118). -/
  | framingError
  /-- `ESC START` inside a frame (R116). -/
  | restart
  /-- A completed frame with `xor(f) ≠ 0` (R141). -/
  | checksum
  /-- A checksum-valid frame with another identifier (R144). -/
  | ident
  /-- A checksum-valid frame that is too short, or has identifier 224 and a length other than 93 (R142, R145). -/
  | length
deriving DecidableEq, Repr

/-- One entry of the observation trace (R32, R221, R260). -/
inductive Obs where
  /-- A discard label and the index of the input byte whose step produced it (R221). -/
  | label (index : Nat) (d : Discard)
  /-- A record the consumer accepted (R232, R260). -/
  | record (r : Record)
  /-- A read of the `status_bit` port at index `k` (R210). -/
  | statusBit (k : BitVec 4) (v : Bool)
  /-- A read of the `out_record` port (R231). -/
  | outRecord (bits : BitVec 720)
deriving DecidableEq, Repr

/-- What the host does at the ports of R231 (log 4). -/
inductive HostEvent where
  /-- `feed(chunk)`: the bytes are presented on `in_data`, in order (R121). -/
  | feed (chunk : List Byte)
  /-- The consumer raises `out_ready` for one transaction (R232). -/
  | accept
  /-- An attached consumer drives `out_ready` at a level (R231). -/
  | ready (level : Bool)
  /-- `registerObserver`: a consumer is attached, `out_ready` low (R231, D15). -/
  | attach
  /-- The host drives `status_index` and reads `status_bit` (R210, R231). -/
  | readStatus (k : BitVec 4)
  /-- The host reads `out_record` (R231). -/
  | readRecord
  /-- The host asserts `rst` (R250). -/
  | rst
deriving DecidableEq, Repr

/-- One entry of the host's schedule (log 4): what it does, and whether it comes first. The spec orders a host action
against a possible acceptance or byte transaction in no way, so either may come first (R250: reset at any event
boundary), but for a record that no consumer waits for, which is accepted at once (R232, D15). -/
structure HostAction where
  /-- The action comes before an acceptance or a byte transaction that is possible at the same boundary; if not, it waits
  until neither is possible. -/
  first : Bool
  /-- What the host does. -/
  event : HostEvent
deriving DecidableEq, Repr

/-- Why a step stops. Both are faults of the READER of a port, not of the block (R232; 93_implementation_defined.md I5):
the spec gives such a read no value and names the treatment `fault`. Safe: no value is invented (log 11). -/
inductive Fault where
  /-- `status_bit` was read while `out_valid = 0`. Raised by ISSET (R210). Safe. -/
  | statusBitHasNoValue
  /-- `out_record` was read while `out_valid = 0`. Raised by the port read (R232). Safe. -/
  | outRecordHasNoValue
deriving DecidableEq, Repr

/-- Why a step has no meaning. -/
inductive Refusal where
  /-- The row has no meaning in this model. No arm of `exec` answers it. Safe. -/
  | notModelled (mnemonic : String)
deriving DecidableEq, Repr

/-- The machine. -/
structure State where
  /-- `state` (R21). -/
  parser : ParserState
  /-- `buf` (R23). -/
  buf : Memory
  /-- `OutPending` (R29). -/
  outPending : Bool
  /-- `OutRecord`, absent exactly when `OutPending = 0` (R28). -/
  outRecord : Option Record
  /-- The frame snapshot `f` inside the completing step (R31, R43), `[]` at every event boundary (log 7). -/
  frame : List Byte
  /-- The record under decode inside the completing step (R31), `Record.blank` at every event boundary (log 7). -/
  work : Record
  /-- `BUF_MAX`, wired when the block is built (R8); no step changes it (log 1). -/
  bufMax : Nat
  /-- MODEL. No consumer attached (`out_ready` tied to 1, D15), or the level an attached one drives (log 5). -/
  consumer : Option Bool
  /-- MODEL. Bytes presented on `in_data` and not yet consumed (R120; log 4). -/
  inPort : List Byte
  /-- MODEL. What the host does next (log 4). -/
  events : List HostAction
  /-- MODEL. Index of the next input byte (R221; log 6). -/
  byteIndex : Nat
  /-- MODEL. The observation trace, oldest first (R221, R260; log 6). -/
  trace : List Obs
deriving DecidableEq, Repr

/-- The machine right after reset (R33, R250), with `BUF_MAX` at its default (D2), no consumer attached (log 5) and a host
that does nothing (log 4). -/
def State.reset : State where
  parser := .idle
  buf := []
  outPending := false
  outRecord := none
  frame := []
  work := Record.blank
  bufMax := Config.defaultBufMax
  consumer := none
  inPort := []
  events := []
  byteIndex := 0
  trace := []

end Sys2Proof.Machine
end

