-- ==== Sys2Proof/Machine/Operands.lean ====
section
/-! DEFINITION. Operands: slices of a frame and of the payload (spec/20_memory.md R42 to R44), the FieldCodec extraction
primitives (spec/42_field_decoder.md R161 to R163), `decode` (R160), the physical values (R164), the binary32 reading of
a pattern (R163), the reference conversion to binary64 (R165), and the packing of the `out_record` port
(spec/60_exceptions.md R231). -/

namespace Sys2Proof.Machine

/-- `MemRead(off, n) = p[off:off+n]` (R14): pure (R50), no alignment rule (R48). -/
def memRead (p : List Byte) (off n : Nat) : List Byte := (p.drop off).take n

/-- The payload view `p = f[2:92]` (R44). -/
def payload (f : List Byte) : List Byte := memRead f 2 Config.navPayloadLen

/-- `u(o, n)`, unsigned extraction (R161). -/
def extractU (p : List Byte) (o n : Nat) : Nat := le (memRead p o n)

/-- `sext_N(v)`, the two's-complement value of an `N`-bit pattern (R12; general knowledge G1 of the spec). -/
def sext (bits v : Nat) : Int :=
  if v.testBit (bits - 1) then (v : Int) - 2 ^ bits else v

/-- `s(o, n)`, signed extraction (R162). -/
def extractS (p : List Byte) (o n : Nat) : Int := sext (8 * n) (le (memRead p o n))

/-- `g(o)`, binary32 extraction: the pattern, bit for bit (R163). -/
def extractG (p : List Byte) (o : Nat) : BitVec 32 := BitVec.ofNat 32 (le (memRead p o 4))

/-- The bytes of a field in a payload (R72). -/
def fieldBytes (f : Field) (p : List Byte) : List Byte := memRead p f.offset f.width

/-- The little-endian pattern of the `n` bytes at offset `o`, as `bits` bits (R73). -/
def pattern (bits : Nat) (p : List Byte) (o n : Nat) : BitVec bits := BitVec.ofNat bits (extractU p o n)

/-- `decode(p)` (R160, R195): the record of rules R166 to R194. -/
def decodePayload (p : List Byte) : Record where
  timeOfValidity := pattern 48 p 0 6
  latitudeDegrees := pattern 32 p 6 4
  longitudeDegrees := pattern 32 p 10 4
  depthMetres := pattern 32 p 14 4
  altitudeMetres := pattern 16 p 18 2
  rollDegrees := pattern 16 p 20 2
  pitchDegrees := pattern 16 p 22 2
  headingDegrees := pattern 16 p 24 2
  velocityNorth := pattern 16 p 26 2
  velocityEast := pattern 16 p 28 2
  velocityDown := pattern 16 p 30 2
  angularRateFwd := pattern 16 p 32 2
  angularRateStarboard := pattern 16 p 34 2
  angularRateDown := pattern 16 p 36 2
  accelerationFwd := pattern 16 p 38 2
  accelerationStarboard := pattern 16 p 40 2
  accelerationDown := pattern 16 p 42 2
  errorEstimate0 := extractG p 44
  errorEstimate1 := extractG p 48
  errorEstimate2 := extractG p 52
  errorEstimate3 := extractG p 56
  errorEstimate4 := extractG p 60
  errorEstimate5 := extractG p 64
  errorEstimate6 := extractG p 68
  errorEstimate7 := extractG p 72
  errorEstimate8 := extractG p 76
  errorEstimate9 := extractG p 80
  errorEstimate10 := extractG p 84
  statusFlags := pattern 16 p 88 2

/-- The bit pattern of a field of a record, as a number. -/
def Record.bits (r : Record) : Field → Nat
  | .timeOfValidity => r.timeOfValidity.toNat
  | .latitudeDegrees => r.latitudeDegrees.toNat
  | .longitudeDegrees => r.longitudeDegrees.toNat
  | .depthMetres => r.depthMetres.toNat
  | .altitudeMetres => r.altitudeMetres.toNat
  | .rollDegrees => r.rollDegrees.toNat
  | .pitchDegrees => r.pitchDegrees.toNat
  | .headingDegrees => r.headingDegrees.toNat
  | .velocityNorth => r.velocityNorth.toNat
  | .velocityEast => r.velocityEast.toNat
  | .velocityDown => r.velocityDown.toNat
  | .angularRateFwd => r.angularRateFwd.toNat
  | .angularRateStarboard => r.angularRateStarboard.toNat
  | .angularRateDown => r.angularRateDown.toNat
  | .accelerationFwd => r.accelerationFwd.toNat
  | .accelerationStarboard => r.accelerationStarboard.toNat
  | .accelerationDown => r.accelerationDown.toNat
  | .errorEstimate0 => r.errorEstimate0.toNat
  | .errorEstimate1 => r.errorEstimate1.toNat
  | .errorEstimate2 => r.errorEstimate2.toNat
  | .errorEstimate3 => r.errorEstimate3.toNat
  | .errorEstimate4 => r.errorEstimate4.toNat
  | .errorEstimate5 => r.errorEstimate5.toNat
  | .errorEstimate6 => r.errorEstimate6.toNat
  | .errorEstimate7 => r.errorEstimate7.toNat
  | .errorEstimate8 => r.errorEstimate8.toNat
  | .errorEstimate9 => r.errorEstimate9.toNat
  | .errorEstimate10 => r.errorEstimate10.toNat
  | .statusFlags => r.statusFlags.toNat

/-- Field kinds (R73). -/
inductive Kind where
  | u16
  | u48
  | s16
  | s32
  | f32
deriving DecidableEq, Repr

/-- The kind of a field (R72). -/
def fieldKind : Field → Kind
  | .timeOfValidity => .u48
  | .latitudeDegrees => .s32
  | .longitudeDegrees => .s32
  | .depthMetres => .s32
  | .altitudeMetres => .u16
  | .rollDegrees => .s16
  | .pitchDegrees => .s16
  | .headingDegrees => .u16
  | .velocityNorth => .s16
  | .velocityEast => .s16
  | .velocityDown => .s16
  | .angularRateFwd => .s16
  | .angularRateStarboard => .s16
  | .angularRateDown => .s16
  | .accelerationFwd => .s16
  | .accelerationStarboard => .s16
  | .accelerationDown => .s16
  | .errorEstimate0 => .f32
  | .errorEstimate1 => .f32
  | .errorEstimate2 => .f32
  | .errorEstimate3 => .f32
  | .errorEstimate4 => .f32
  | .errorEstimate5 => .f32
  | .errorEstimate6 => .f32
  | .errorEstimate7 => .f32
  | .errorEstimate8 => .f32
  | .errorEstimate9 => .f32
  | .errorEstimate10 => .f32
  | .statusFlags => .u16

/-- `num` and `den` of a field (R72); a binary32 field has none. -/
def fieldScale : Field → Option (Nat × Nat)
  | .timeOfValidity => some (1, 1)
  | .latitudeDegrees => some (90, 2147483648)
  | .longitudeDegrees => some (180, 2147483648)
  | .depthMetres => some (1, 1000)
  | .altitudeMetres => some (1, 100)
  | .rollDegrees => some (180, 32768)
  | .pitchDegrees => some (180, 32768)
  | .headingDegrees => some (180, 32768)
  | .velocityNorth => some (1, 1000)
  | .velocityEast => some (1, 1000)
  | .velocityDown => some (1, 1000)
  | .angularRateFwd => some (1, 100)
  | .angularRateStarboard => some (1, 100)
  | .angularRateDown => some (1, 100)
  | .accelerationFwd => some (1, 1000)
  | .accelerationStarboard => some (1, 1000)
  | .accelerationDown => some (1, 1000)
  | .errorEstimate0 => none
  | .errorEstimate1 => none
  | .errorEstimate2 => none
  | .errorEstimate3 => none
  | .errorEstimate4 => none
  | .errorEstimate5 => none
  | .errorEstimate6 => none
  | .errorEstimate7 => none
  | .errorEstimate8 => none
  | .errorEstimate9 => none
  | .errorEstimate10 => none
  | .statusFlags => some (1, 1)

/-- `raw` of a field of a record (R73): unsigned, or two's complement, or the binary32 pattern as a number. -/
def fieldRaw (r : Record) (f : Field) : Int :=
  match fieldKind f with
  | .u16 => r.bits f
  | .u48 => r.bits f
  | .s16 => sext 16 (r.bits f)
  | .s32 => sext 32 (r.bits f)
  | .f32 => r.bits f

/-- The physical value `raw × num / den`, exact (R164). A binary32 field is not scaled. -/
def fieldPhys (r : Record) (f : Field) : Option Rat :=
  match fieldScale f with
  | some (num, den) => some ((fieldRaw r f : Rat) * (num : Rat) / (den : Rat))
  | none => none

/-- The IEEE-754 reading of a binary32 pattern (R163; general knowledge G3 of the spec). A zero keeps its sign. -/
inductive Binary32 where
  | finite (negative : Bool) (magnitude : Rat)
  | infinity (negative : Bool)
  | nan (quiet : Bool)
deriving DecidableEq, Repr

/-- The value of a binary32 pattern (R163): sign bit 31, biased exponent bits 30..23, fraction bits 22..0. The magnitude
`2^(e-127) × (1 + m/2^23)` is written `(2^23 + m) × 2^e / 2^150`, and `2^(-126) × m/2^23` is `m / 2^149`. -/
def binary32 (w : BitVec 32) : Binary32 :=
  let s := w.getLsbD 31
  let e := (w.extractLsb' 23 8).toNat
  let m := (w.extractLsb' 0 23).toNat
  if e = 255 then
    if m = 0 then .infinity s else .nan (w.getLsbD 22)
  else if e = 0 then .finite s (mkRat m (2 ^ 149))
  else .finite s (mkRat ((2 ^ 23 + m) * 2 ^ e : Nat) (2 ^ 150))

/-- `n / d` rounded to a natural number, ties to even. -/
def roundTiesEven (n d : Nat) : Nat :=
  let q := n / d
  let r := n % d
  if 2 * r < d then q
  else if d < 2 * r then q + 1
  else if q % 2 = 0 then q else q + 1

/-- The reference value of `REAL_CONV` (R165): the binary64 pattern nearest to an exact rational, ties to even (the layout of
the pattern is PRESUMED, log 17). -/
def binary64Nearest (x : Rat) : BitVec 64 :=
  let n := x.num.natAbs
  let d := x.den
  if n = 0 then 0
  else
    let e0 : Int := (n.log2 : Int) - (d.log2 : Int)
    let e1 : Int := if d * 2 ^ e0.toNat ≤ n * 2 ^ (-e0).toNat then e0 else e0 - 1
    let e : Int := max e1 (-1022)
    let k : Int := e - 52
    let sig := roundTiesEven (n * 2 ^ (-k).toNat) (d * 2 ^ k.toNat)
    let mag := (e + 1022).toNat * 2 ^ 52 + sig
    let top := 2047 * 2 ^ 52
    BitVec.ofNat 64 ((if x.num < 0 then 2 ^ 63 else 0) + (if mag < top then mag else top))

/-- The number a binary64 pattern stands for (IEEE-754, PRESUMED, log 17): sign bit 63, biased exponent bits 62..52, fraction
bits 51..0; an infinity or a NaN stands for none. -/
def binary64Value (w : BitVec 64) : Option Rat :=
  let e := (w.extractLsb' 52 11).toNat
  let m := (w.extractLsb' 0 52).toNat
  let magnitude := if e = 0 then mkRat m (2 ^ 1074) else mkRat ((2 ^ 52 + m) * 2 ^ e : Nat) (2 ^ 1075)
  if e = 2047 then none else some (if w.getLsbD 63 then -magnitude else magnitude)

/-- The physical value of a field as a host number, `REAL_CONV(phys)` (R165): whatever number the open parameter makes of
the exact rational (log 3). -/
def fieldReal (r : Record) (f : Field) : Option (BitVec 64) := (fieldPhys r f).map Config.realConv

/-- The packing of the `out_record` port: field order, field 0 at the least significant bits (R231). -/
def Record.packed (r : Record) : BitVec 720 :=
  r.statusFlags ++ r.errorEstimate10 ++ r.errorEstimate9 ++ r.errorEstimate8 ++
    r.errorEstimate7 ++ r.errorEstimate6 ++ r.errorEstimate5 ++ r.errorEstimate4 ++
    r.errorEstimate3 ++ r.errorEstimate2 ++ r.errorEstimate1 ++ r.errorEstimate0 ++
    r.accelerationDown ++ r.accelerationStarboard ++ r.accelerationFwd ++ r.angularRateDown ++
    r.angularRateStarboard ++ r.angularRateFwd ++ r.velocityDown ++ r.velocityEast ++
    r.velocityNorth ++ r.headingDegrees ++ r.pitchDegrees ++ r.rollDegrees ++
    r.altitudeMetres ++ r.depthMetres ++ r.longitudeDegrees ++ r.latitudeDegrees ++
    r.timeOfValidity

end Sys2Proof.Machine
end

