-- ==== Sys2Proof/Machine/Flags.lean ====
section
/-! DEFINITION. The Boolean views of `state` (spec/10_state.md R22), the one-bit ports (spec/60_exceptions.md R231), and
the status-bit accessor with the two named flags (spec/43_status_accessor.md R210, R212). -/

namespace Sys2Proof.Machine

/-- `in_frame(state) = state[1]` (R22). -/
def inFrameFlag (p : ParserState) : Bool := p.code.getLsbD 1

/-- `esc_pending(state) = state[0]` (R22). -/
def escPendingFlag (p : ParserState) : Bool := p.code.getLsbD 0

/-- `in_ready = ¬OutPending` (R120, R231). -/
def State.inReady (s : State) : Bool := !s.outPending

/-- `out_valid = OutPending` (R231). -/
def State.outValid (s : State) : Bool := s.outPending

/-- `out_ready`: tied to 1 with no consumer attached (R232, D15), else the level the consumer drives. -/
def State.outReady (s : State) : Bool :=
  match s.consumer with
  | none => true
  | some level => level

/-- `isSet(rec, k) = ((rec.StatusFlags >> k) & 1) != 0` (R210). -/
def isSet (r : Record) (k : BitVec 4) : Bool := ((r.statusFlags >>> k.toNat) &&& 1#16) != 0#16

/-- "orientation not settled" (R212), at the OPEN position of Config. -/
def orientationNotSettled (r : Record) : Bool := isSet r Config.orientNotSettledBit

/-- "position invalid" (R212), at the OPEN position of Config. -/
def positionInvalid (r : Record) : Bool := isSet r Config.posInvalidBit

end Sys2Proof.Machine
end

