-- ==== Sys2Proof/Machine/Ops.lean ====
section
/-! DEFINITION. The named operations over the state: the pseudocode primitives of spec/00_scope.md R14. The block has no
traps (spec/60_exceptions.md R220, R224, R225): what stands in the place of taking an exception is the one shared
operation `State.discard`; there is nothing to return from. -/

namespace Sys2Proof.Machine

/-- One outcome after another: a fault or a refusal ends the sequence. -/
def andThen (o : Host.Outcome State Fault Refusal) (k : State → Host.Outcome State Fault Refusal) :
    Host.Outcome State Fault Refusal :=
  match o with
  | .next s => k s
  | .fault r => .fault r
  | .refused r => .refused r

/-- A byte of the buffer: index `i` exists exactly when `i < len(buf)` (R40). -/
def readByte (m : Memory) (i : Nat) : Option Byte := m[i]?

/-- `buf ++ [b]`, the only storage write: byte `b` at index `len(buf)` (R42). -/
def appendByte (m : Memory) (b : Byte) : Memory := m ++ [b]

/-- The bound on the buffer at a step boundary, `len(buf) ≤ BUF_MAX + 1` (R25). -/
def Memory.wf (bufMax : Nat) (m : Memory) : Bool := m.length ≤ bufMax + 1

/-- `buf <- buf ++ [b]` (R14). -/
def State.append (s : State) (b : Byte) : State := { s with buf := appendByte s.buf b }

/-- `buf <- []` (R14). -/
def State.clearBuf (s : State) : State := { s with buf := [] }

/-- `state <- p` (R14). -/
def State.goto (s : State) (p : ParserState) : State := { s with parser := p }

/-- The hard reset `state <- Idle; buf <- []` (R100). -/
def State.hardReset (s : State) : State := { s with parser := .idle, buf := [] }

/-- Add an entry to the observation trace (R221, R260). -/
def State.observe (s : State) (o : Obs) : State := { s with trace := s.trace ++ [o] }

/-- The code of a discard label (R221). -/
def Discard.code : Discard → Nat
  | .overflow => 1
  | .framingError => 2
  | .restart => 3
  | .checksum => 4
  | .ident => 5
  | .length => 6

/-- `discard(REASON)` (R14, R221): the label with the index of the current byte, in the model's trace only. -/
def State.discard (s : State) (d : Discard) : State := s.observe (.label s.byteIndex d)

/-- `emit(rec)` (R14, R49): all 29 fields and `OutPending` at once. -/
def State.emit (s : State) (r : Record) : State := { s with outRecord := some r, outPending := true }

/-- The frame snapshot `f <- buf`, handed to the parser (R43, R117). -/
def State.setFrame (s : State) (f : List Byte) : State := { s with frame := f }

/-- The record under decode (R31). -/
def State.setWork (s : State) (r : Record) : State := { s with work := r }

/-- The values that exist only inside the completing step are gone at its end (R31). -/
def State.endDispatch (s : State) : State := { s with frame := [], work := Record.blank }

/-- An accept transaction (R232): `OutPending <- 0; OutRecord <- absent`. An attached consumer takes the record, which the
trace shows (R260); with no consumer attached it is lost (D15). -/
def State.accept (s : State) : State :=
  { s with
    outPending := false
    outRecord := none
    trace :=
      match s.consumer, s.outRecord with
      | some _, some r => s.trace ++ [.record r]
      | _, _ => s.trace }

/-- Reset (R250): the block's state as in R33. A pending record is lost and a partial frame dropped with no label. The byte
index of the model's trace starts again (log 6). -/
def State.applyReset (s : State) : State :=
  { s with
    parser := .idle
    buf := []
    outPending := false
    outRecord := none
    frame := []
    work := Record.blank
    byteIndex := 0 }

/-- The host presents a chunk on `in_data` (R121). -/
def State.present (s : State) (chunk : List Byte) : State := { s with inPort := s.inPort ++ chunk }

/-- The bytes still presented once the block has consumed one. -/
def State.setInPort (s : State) (rest : List Byte) : State := { s with inPort := rest }

/-- The host actions still to come. -/
def State.setEvents (s : State) (es : List HostAction) : State := { s with events := es }

/-- The next host action waits for the block (log 4). -/
def State.yieldHost (s : State) : State :=
  { s with
    events :=
      match s.events with
      | [] => []
      | a :: es => { a with first := false } :: es }

/-- The consumer's side of the output port (R231). -/
def State.setConsumer (s : State) (c : Option Bool) : State := { s with consumer := c }

/-- The input byte has been processed (R221). -/
def State.nextByte (s : State) : State := { s with byteIndex := s.byteIndex + 1 }

/-- `xor(s)`, the XOR of all bytes, 0 for the empty sequence (R12). -/
def xorAll (f : List Byte) : Byte := f.foldr (fun b acc => b ^^^ acc) 0#8

/-- The header `h = f[0] × 256 + f[1]` of a frame of two or more bytes (R69). -/
def headerWord (f : List Byte) : BitVec 16 := f.getD 0 0#8 ++ f.getD 1 0#8

/-- Identifier assembly `id = (zext_2(f[0][1:0]) << 8) | f[1]` (R68, R143). -/
def frameId (f : List Byte) : Nat := (((f.getD 0 0#8).toNat &&& 0x03) <<< 8) ||| (f.getD 1 0#8).toNat

/-- The acceptance predicate (R147): `xor(f) = 0`, `N = 93`, `f[0][1:0] = 0`, `f[1] = 0xE0`. -/
def accepted (f : List Byte) : Bool :=
  xorAll f == 0#8 && f.length == Config.navFrameLen && (f.getD 0 0#8).extractLsb' 0 2 == 0#2 &&
    f.getD 1 0#8 == 0xE0#8

/-- The doubling `e(f)` (R65): every `ESC` byte of a frame is sent twice. -/
def escaped : List Byte → List Byte
  | [] => []
  | b :: bs => if b = Config.esc then Config.esc :: Config.esc :: escaped bs else b :: escaped bs

/-- `RAWFRAME(B) = ESC START e(B) ESC END` (R76): the wire form of a frame (R65). -/
def rawFrame (f : List Byte) : List Byte :=
  [Config.esc, Config.startMarker] ++ escaped f ++ [Config.esc, Config.endMarker]

/-- The frame of `FRAME(h0, h1, P)` before escaping: header, payload, checksum (R66, R70, R76). -/
def checkedFrame (h0 h1 : Byte) (p : List Byte) : List Byte :=
  (h0 :: h1 :: p) ++ [xorAll (h0 :: h1 :: p)]

end Sys2Proof.Machine
end

