-- ==== Sys2Proof/Machine/Accessor.lean ====
section
/-! DEFINITION. The status-bit accessor row (spec/43_status_accessor.md R210) and the read of the `out_record` port
(spec/60_exceptions.md R231, R232). Neither changes the block; what the host sees goes to the trace (log 6). -/

namespace Sys2Proof.Machine

/-- ISSET (R210): `status_bit = isSet(OutRecord, k)`. While `out_valid = 0` the read has no value: a fault of the reader
(R232). -/
def execIsset (k : BitVec 4) (s : State) : Host.Outcome State Fault Refusal :=
  match s.outValid, s.outRecord with
  | true, some r => .next (s.observe (.statusBit k (isSet r k)))
  | _, _ => .fault .statusBitHasNoValue

/-- A read of `out_record` (R231, R232). -/
def readOutRecord (s : State) : Host.Outcome State Fault Refusal :=
  match s.outValid, s.outRecord with
  | true, some r => .next (s.observe (.outRecord r.packed))
  | _, _ => .fault .outRecordHasNoValue

end Sys2Proof.Machine
end

