-- ==== Sys2Proof/Machine/Fields.lean ====
section
/-! DEFINITION. The 29 field rows (spec/42_field_decoder.md R166 to R194): the row's word is the field's raw value, which
goes into the record under decode (R31). The bytes the word is read from, its kind, scale and physical value are in
Decode.lean and Operands.lean. No field row can fail (R160) and none touches another field (R50). Then the whole
decode of a payload, the field rows in field order (R195). -/

namespace Sys2Proof.Machine

/-- NAV.TimeOfValidity (R166): payload bytes 0..5, u48, unsigned. -/
def execNavTimeOfValidity (v : BitVec 48) (s : State) : Host.Outcome State Fault Refusal :=
  .next (s.setWork { s.work with timeOfValidity := v })

/-- NAV.LatitudeDegrees (R167): payload bytes 6..9, s32, signed. -/
def execNavLatitudeDegrees (v : BitVec 32) (s : State) : Host.Outcome State Fault Refusal :=
  .next (s.setWork { s.work with latitudeDegrees := v })

/-- NAV.LongitudeDegrees (R168): payload bytes 10..13, s32, signed. -/
def execNavLongitudeDegrees (v : BitVec 32) (s : State) : Host.Outcome State Fault Refusal :=
  .next (s.setWork { s.work with longitudeDegrees := v })

/-- NAV.DepthMetres (R169): payload bytes 14..17, s32, signed. -/
def execNavDepthMetres (v : BitVec 32) (s : State) : Host.Outcome State Fault Refusal :=
  .next (s.setWork { s.work with depthMetres := v })

/-- NAV.AltitudeMetres (R170): payload bytes 18..19, u16, unsigned. -/
def execNavAltitudeMetres (v : BitVec 16) (s : State) : Host.Outcome State Fault Refusal :=
  .next (s.setWork { s.work with altitudeMetres := v })

/-- NAV.RollDegrees (R171): payload bytes 20..21, s16, signed. -/
def execNavRollDegrees (v : BitVec 16) (s : State) : Host.Outcome State Fault Refusal :=
  .next (s.setWork { s.work with rollDegrees := v })

/-- NAV.PitchDegrees (R172): payload bytes 22..23, s16, signed. -/
def execNavPitchDegrees (v : BitVec 16) (s : State) : Host.Outcome State Fault Refusal :=
  .next (s.setWork { s.work with pitchDegrees := v })

/-- NAV.HeadingDegrees (R173): payload bytes 24..25, u16, unsigned. -/
def execNavHeadingDegrees (v : BitVec 16) (s : State) : Host.Outcome State Fault Refusal :=
  .next (s.setWork { s.work with headingDegrees := v })

/-- NAV.VelocityNorth (R174): payload bytes 26..27, s16, signed. -/
def execNavVelocityNorth (v : BitVec 16) (s : State) : Host.Outcome State Fault Refusal :=
  .next (s.setWork { s.work with velocityNorth := v })

/-- NAV.VelocityEast (R175): payload bytes 28..29, s16, signed. -/
def execNavVelocityEast (v : BitVec 16) (s : State) : Host.Outcome State Fault Refusal :=
  .next (s.setWork { s.work with velocityEast := v })

/-- NAV.VelocityDown (R176): payload bytes 30..31, s16, signed. -/
def execNavVelocityDown (v : BitVec 16) (s : State) : Host.Outcome State Fault Refusal :=
  .next (s.setWork { s.work with velocityDown := v })

/-- NAV.AngularRateFwd (R177): payload bytes 32..33, s16, signed. -/
def execNavAngularRateFwd (v : BitVec 16) (s : State) : Host.Outcome State Fault Refusal :=
  .next (s.setWork { s.work with angularRateFwd := v })

/-- NAV.AngularRateStarboard (R178): payload bytes 34..35, s16, signed. -/
def execNavAngularRateStarboard (v : BitVec 16) (s : State) : Host.Outcome State Fault Refusal :=
  .next (s.setWork { s.work with angularRateStarboard := v })

/-- NAV.AngularRateDown (R179): payload bytes 36..37, s16, signed. -/
def execNavAngularRateDown (v : BitVec 16) (s : State) : Host.Outcome State Fault Refusal :=
  .next (s.setWork { s.work with angularRateDown := v })

/-- NAV.AccelerationFwd (R180): payload bytes 38..39, s16, signed. -/
def execNavAccelerationFwd (v : BitVec 16) (s : State) : Host.Outcome State Fault Refusal :=
  .next (s.setWork { s.work with accelerationFwd := v })

/-- NAV.AccelerationStarboard (R181): payload bytes 40..41, s16, signed. -/
def execNavAccelerationStarboard (v : BitVec 16) (s : State) : Host.Outcome State Fault Refusal :=
  .next (s.setWork { s.work with accelerationStarboard := v })

/-- NAV.AccelerationDown (R182): payload bytes 42..43, s16, signed. -/
def execNavAccelerationDown (v : BitVec 16) (s : State) : Host.Outcome State Fault Refusal :=
  .next (s.setWork { s.work with accelerationDown := v })

/-- NAV.ErrorEstimate0 (R183): payload bytes 44..47, f32, binary32 pattern. -/
def execNavErrorEstimate0 (v : BitVec 32) (s : State) : Host.Outcome State Fault Refusal :=
  .next (s.setWork { s.work with errorEstimate0 := v })

/-- NAV.ErrorEstimate1 (R184): payload bytes 48..51, f32, binary32 pattern. -/
def execNavErrorEstimate1 (v : BitVec 32) (s : State) : Host.Outcome State Fault Refusal :=
  .next (s.setWork { s.work with errorEstimate1 := v })

/-- NAV.ErrorEstimate2 (R185): payload bytes 52..55, f32, binary32 pattern. -/
def execNavErrorEstimate2 (v : BitVec 32) (s : State) : Host.Outcome State Fault Refusal :=
  .next (s.setWork { s.work with errorEstimate2 := v })

/-- NAV.ErrorEstimate3 (R186): payload bytes 56..59, f32, binary32 pattern. -/
def execNavErrorEstimate3 (v : BitVec 32) (s : State) : Host.Outcome State Fault Refusal :=
  .next (s.setWork { s.work with errorEstimate3 := v })

/-- NAV.ErrorEstimate4 (R187): payload bytes 60..63, f32, binary32 pattern. -/
def execNavErrorEstimate4 (v : BitVec 32) (s : State) : Host.Outcome State Fault Refusal :=
  .next (s.setWork { s.work with errorEstimate4 := v })

/-- NAV.ErrorEstimate5 (R188): payload bytes 64..67, f32, binary32 pattern. -/
def execNavErrorEstimate5 (v : BitVec 32) (s : State) : Host.Outcome State Fault Refusal :=
  .next (s.setWork { s.work with errorEstimate5 := v })

/-- NAV.ErrorEstimate6 (R189): payload bytes 68..71, f32, binary32 pattern. -/
def execNavErrorEstimate6 (v : BitVec 32) (s : State) : Host.Outcome State Fault Refusal :=
  .next (s.setWork { s.work with errorEstimate6 := v })

/-- NAV.ErrorEstimate7 (R190): payload bytes 72..75, f32, binary32 pattern. -/
def execNavErrorEstimate7 (v : BitVec 32) (s : State) : Host.Outcome State Fault Refusal :=
  .next (s.setWork { s.work with errorEstimate7 := v })

/-- NAV.ErrorEstimate8 (R191): payload bytes 76..79, f32, binary32 pattern. -/
def execNavErrorEstimate8 (v : BitVec 32) (s : State) : Host.Outcome State Fault Refusal :=
  .next (s.setWork { s.work with errorEstimate8 := v })

/-- NAV.ErrorEstimate9 (R192): payload bytes 80..83, f32, binary32 pattern. -/
def execNavErrorEstimate9 (v : BitVec 32) (s : State) : Host.Outcome State Fault Refusal :=
  .next (s.setWork { s.work with errorEstimate9 := v })

/-- NAV.ErrorEstimate10 (R193): payload bytes 84..87, f32, binary32 pattern. -/
def execNavErrorEstimate10 (v : BitVec 32) (s : State) : Host.Outcome State Fault Refusal :=
  .next (s.setWork { s.work with errorEstimate10 := v })

/-- NAV.StatusFlags (R194): payload bytes 88..89, u16, unsigned. -/
def execNavStatusFlags (v : BitVec 16) (s : State) : Host.Outcome State Fault Refusal :=
  .next (s.setWork { s.work with statusFlags := v })

/-- The decode of the payload of the frame in hand: the 29 field rows, each on the word its payload bytes hold, in field
order (R195). -/
def decodeFields (s : State) : Host.Outcome State Fault Refusal :=
  let p := payload s.frame
  andThen (execNavTimeOfValidity (pattern 48 p 0 6) s) fun s =>
  andThen (execNavLatitudeDegrees (pattern 32 p 6 4) s) fun s =>
  andThen (execNavLongitudeDegrees (pattern 32 p 10 4) s) fun s =>
  andThen (execNavDepthMetres (pattern 32 p 14 4) s) fun s =>
  andThen (execNavAltitudeMetres (pattern 16 p 18 2) s) fun s =>
  andThen (execNavRollDegrees (pattern 16 p 20 2) s) fun s =>
  andThen (execNavPitchDegrees (pattern 16 p 22 2) s) fun s =>
  andThen (execNavHeadingDegrees (pattern 16 p 24 2) s) fun s =>
  andThen (execNavVelocityNorth (pattern 16 p 26 2) s) fun s =>
  andThen (execNavVelocityEast (pattern 16 p 28 2) s) fun s =>
  andThen (execNavVelocityDown (pattern 16 p 30 2) s) fun s =>
  andThen (execNavAngularRateFwd (pattern 16 p 32 2) s) fun s =>
  andThen (execNavAngularRateStarboard (pattern 16 p 34 2) s) fun s =>
  andThen (execNavAngularRateDown (pattern 16 p 36 2) s) fun s =>
  andThen (execNavAccelerationFwd (pattern 16 p 38 2) s) fun s =>
  andThen (execNavAccelerationStarboard (pattern 16 p 40 2) s) fun s =>
  andThen (execNavAccelerationDown (pattern 16 p 42 2) s) fun s =>
  andThen (execNavErrorEstimate0 (extractG p 44) s) fun s =>
  andThen (execNavErrorEstimate1 (extractG p 48) s) fun s =>
  andThen (execNavErrorEstimate2 (extractG p 52) s) fun s =>
  andThen (execNavErrorEstimate3 (extractG p 56) s) fun s =>
  andThen (execNavErrorEstimate4 (extractG p 60) s) fun s =>
  andThen (execNavErrorEstimate5 (extractG p 64) s) fun s =>
  andThen (execNavErrorEstimate6 (extractG p 68) s) fun s =>
  andThen (execNavErrorEstimate7 (extractG p 72) s) fun s =>
  andThen (execNavErrorEstimate8 (extractG p 76) s) fun s =>
  andThen (execNavErrorEstimate9 (extractG p 80) s) fun s =>
  andThen (execNavErrorEstimate10 (extractG p 84) s) fun s =>
  execNavStatusFlags (pattern 16 p 88 2) s

end Sys2Proof.Machine
end

