-- ==== Sys2Proof/Machine/Dispatcher.lean ====
section
/-! DEFINITION. The checksummed frame parser (spec/41_dispatcher.md): the two frame-header rows and `dispatch(f)`
(R140). The rows act on the frame in hand, `State.frame`. -/

namespace Sys2Proof.Machine

/-- HDR.OTHER (R144): a checksum-valid frame whose identifier is not 224 is discarded. -/
def execHdrOther (_h : BitVec 16) (s : State) : Host.Outcome State Fault Refusal :=
  .next (s.discard .ident)

/-- NAV.ACCEPT: the length stage (R145), then `rec <- decode(p); OutRecord <- rec; OutPending <- 1` (R146). EXT_TIME and
the header bits not interpreted do not matter (R148). -/
def execNavAccept (_x : BitVec 6) (s : State) : Host.Outcome State Fault Refusal :=
  if s.frame.length - Config.frameOverhead = Config.navPayloadLen then
    andThen (decodeFields s) fun t => .next (t.emit t.work)
  else .next (s.discard .length)

/-- `dispatch(f)` (R140): checksum (R141), short frame (R142), then the header row (R143, R144) with its length stage
(R145) and emission (R146). -/
def dispatch (f : List Byte) (s : State) : Host.Outcome State Fault Refusal :=
  if xorAll f ≠ 0#8 then .next (s.discard .checksum)
  else if f.length < 2 then .next (s.discard .length)
  else if isNavHeader (headerWord f) then execNavAccept (headerIgnored (headerWord f)) (s.setFrame f)
  else execHdrOther (headerWord f) (s.setFrame f)

end Sys2Proof.Machine
end

