-- ==== Sys2Proof/Machine/Framer.lean ====
section
/-! DEFINITION. The deframer's rows (spec/40_framer.md): the overflow pre-check (R102) and the sixteen transitions (R103
to R118). A transition row is selected by (state, class) before it runs (R101); its meaning is the rule's pseudocode. -/

namespace Sys2Proof.Machine

/-- PRECHECK.OVERFLOW (R102): the hard reset of R100 and `discard(OVERFLOW)` when `len(buf) > BUF_MAX`. -/
def execPrecheckOverflow (s : State) : Host.Outcome State Fault Refusal :=
  if s.buf.length > s.bufMax then .next (s.hardReset.discard .overflow) else .next s

/-- IDLE.ESC (R103): `state <- EscapeSeen`. -/
def execIdleEsc (s : State) : Host.Outcome State Fault Refusal :=
  .next (s.goto .escapeSeen)

/-- IDLE.START (R104): no change. -/
def execIdleStart (s : State) : Host.Outcome State Fault Refusal :=
  .next s

/-- IDLE.END (R105): no change. -/
def execIdleEnd (s : State) : Host.Outcome State Fault Refusal :=
  .next s

/-- IDLE.OTHER (R106): no change. -/
def execIdleOther (_b : Byte) (s : State) : Host.Outcome State Fault Refusal :=
  .next s

/-- ESCSEEN.ESC (R107): `state <- Idle`. -/
def execEscseenEsc (s : State) : Host.Outcome State Fault Refusal :=
  .next (s.goto .idle)

/-- ESCSEEN.START (R108): a frame opens: `buf <- []; state <- InFrame`. -/
def execEscseenStart (s : State) : Host.Outcome State Fault Refusal :=
  .next (s.clearBuf.goto .inFrame)

/-- ESCSEEN.END (R109): `state <- Idle`; no dispatch, no label. -/
def execEscseenEnd (s : State) : Host.Outcome State Fault Refusal :=
  .next (s.goto .idle)

/-- ESCSEEN.OTHER (R110): a framing error: `buf <- []; state <- Idle; discard(FRAMING_ERROR)`. -/
def execEscseenOther (_b : Byte) (s : State) : Host.Outcome State Fault Refusal :=
  .next (s.hardReset.discard .framingError)

/-- INFRAME.ESC (R111): `state <- InFrameEscapeSeen`; the `ESC` is not appended. -/
def execInframeEsc (s : State) : Host.Outcome State Fault Refusal :=
  .next (s.goto .inFrameEscapeSeen)

/-- INFRAME.START (R112): a literal `0x02`: `buf <- buf ++ [0x02]`. -/
def execInframeStart (s : State) : Host.Outcome State Fault Refusal :=
  .next (s.append Config.startMarker)

/-- INFRAME.END (R113): a literal `0x03`: `buf <- buf ++ [0x03]`. -/
def execInframeEnd (s : State) : Host.Outcome State Fault Refusal :=
  .next (s.append Config.endMarker)

/-- INFRAME.OTHER (R114): a data byte: `buf <- buf ++ [b]`. -/
def execInframeOther (b : Byte) (s : State) : Host.Outcome State Fault Refusal :=
  .next (s.append b)

/-- INFRAMEESC.ESC (R115): a literal `0x10`: `buf <- buf ++ [0x10]; state <- InFrame`. -/
def execInframeescEsc (s : State) : Host.Outcome State Fault Refusal :=
  .next ((s.append Config.esc).goto .inFrame)

/-- INFRAMEESC.START (R116): the frame restarts: `discard(RESTART); buf <- []; state <- InFrame`. -/
def execInframeescStart (s : State) : Host.Outcome State Fault Refusal :=
  .next ((s.discard .restart).clearBuf.goto .inFrame)

/-- INFRAMEESC.END (R117): the frame completes: `f <- buf; buf <- []; state <- Idle; dispatch(f)`,
all inside this step (R140, D7); the snapshot is gone at its end (R31). -/
def execInframeescEnd (s : State) : Host.Outcome State Fault Refusal :=
  andThen (dispatch s.buf s.hardReset) fun t => .next t.endDispatch

/-- INFRAMEESC.OTHER (R118): a framing error: `buf <- []; state <- Idle; discard(FRAMING_ERROR)`. -/
def execInframeescOther (_b : Byte) (s : State) : Host.Outcome State Fault Refusal :=
  .next (s.hardReset.discard .framingError)

end Sys2Proof.Machine
end

