-- ==== Sys2Proof/Machine/Dispatch.lean ====
section
/-! DEFINITION. One arm per row of spec/opcode_table.json. -/

namespace Sys2Proof.Machine

def exec (i : Instr) (s : State) : Host.Outcome State Fault Refusal :=
  match i with
  | .precheckOverflow => Sys2Proof.Machine.execPrecheckOverflow s
  | .idleEsc => Sys2Proof.Machine.execIdleEsc s
  | .idleStart => Sys2Proof.Machine.execIdleStart s
  | .idleEnd => Sys2Proof.Machine.execIdleEnd s
  | .idleOther b => Sys2Proof.Machine.execIdleOther b s
  | .escseenEsc => Sys2Proof.Machine.execEscseenEsc s
  | .escseenStart => Sys2Proof.Machine.execEscseenStart s
  | .escseenEnd => Sys2Proof.Machine.execEscseenEnd s
  | .escseenOther b => Sys2Proof.Machine.execEscseenOther b s
  | .inframeEsc => Sys2Proof.Machine.execInframeEsc s
  | .inframeStart => Sys2Proof.Machine.execInframeStart s
  | .inframeEnd => Sys2Proof.Machine.execInframeEnd s
  | .inframeOther b => Sys2Proof.Machine.execInframeOther b s
  | .inframeescEsc => Sys2Proof.Machine.execInframeescEsc s
  | .inframeescStart => Sys2Proof.Machine.execInframeescStart s
  | .inframeescEnd => Sys2Proof.Machine.execInframeescEnd s
  | .inframeescOther b => Sys2Proof.Machine.execInframeescOther b s
  | .navAccept x => Sys2Proof.Machine.execNavAccept x s
  | .hdrOther h => Sys2Proof.Machine.execHdrOther h s
  | .navTimeOfValidity v => Sys2Proof.Machine.execNavTimeOfValidity v s
  | .navLatitudeDegrees v => Sys2Proof.Machine.execNavLatitudeDegrees v s
  | .navLongitudeDegrees v => Sys2Proof.Machine.execNavLongitudeDegrees v s
  | .navDepthMetres v => Sys2Proof.Machine.execNavDepthMetres v s
  | .navAltitudeMetres v => Sys2Proof.Machine.execNavAltitudeMetres v s
  | .navRollDegrees v => Sys2Proof.Machine.execNavRollDegrees v s
  | .navPitchDegrees v => Sys2Proof.Machine.execNavPitchDegrees v s
  | .navHeadingDegrees v => Sys2Proof.Machine.execNavHeadingDegrees v s
  | .navVelocityNorth v => Sys2Proof.Machine.execNavVelocityNorth v s
  | .navVelocityEast v => Sys2Proof.Machine.execNavVelocityEast v s
  | .navVelocityDown v => Sys2Proof.Machine.execNavVelocityDown v s
  | .navAngularRateFwd v => Sys2Proof.Machine.execNavAngularRateFwd v s
  | .navAngularRateStarboard v => Sys2Proof.Machine.execNavAngularRateStarboard v s
  | .navAngularRateDown v => Sys2Proof.Machine.execNavAngularRateDown v s
  | .navAccelerationFwd v => Sys2Proof.Machine.execNavAccelerationFwd v s
  | .navAccelerationStarboard v => Sys2Proof.Machine.execNavAccelerationStarboard v s
  | .navAccelerationDown v => Sys2Proof.Machine.execNavAccelerationDown v s
  | .navErrorEstimate0 v => Sys2Proof.Machine.execNavErrorEstimate0 v s
  | .navErrorEstimate1 v => Sys2Proof.Machine.execNavErrorEstimate1 v s
  | .navErrorEstimate2 v => Sys2Proof.Machine.execNavErrorEstimate2 v s
  | .navErrorEstimate3 v => Sys2Proof.Machine.execNavErrorEstimate3 v s
  | .navErrorEstimate4 v => Sys2Proof.Machine.execNavErrorEstimate4 v s
  | .navErrorEstimate5 v => Sys2Proof.Machine.execNavErrorEstimate5 v s
  | .navErrorEstimate6 v => Sys2Proof.Machine.execNavErrorEstimate6 v s
  | .navErrorEstimate7 v => Sys2Proof.Machine.execNavErrorEstimate7 v s
  | .navErrorEstimate8 v => Sys2Proof.Machine.execNavErrorEstimate8 v s
  | .navErrorEstimate9 v => Sys2Proof.Machine.execNavErrorEstimate9 v s
  | .navErrorEstimate10 v => Sys2Proof.Machine.execNavErrorEstimate10 v s
  | .navStatusFlags v => Sys2Proof.Machine.execNavStatusFlags v s
  | .isset k => Sys2Proof.Machine.execIsset k s

end Sys2Proof.Machine
end

