-- ==== Sys2Proof/Machine/Cycle.lean ====
section
/-! DEFINITION. One event of the machine (spec/60_exceptions.md R231: one event is a byte transaction or a record
acceptance, never both) and the host's other actions at the ports; and where the word of a table row stands when it is
to be the next one fetched. -/

namespace Sys2Proof.Machine

/-- A byte transaction, the spec's step (R101): the pre-check row, then the row of the word `w` that the state after the
pre-check and the byte make, then the model's byte index moves on. -/
def byteTransaction (b : Byte) (s : State) : Host.Outcome State Fault Refusal :=
  andThen (exec .precheckOverflow s) fun s1 =>
    andThen (exec (decodeStep (stepWord s1.parser b)) s1) fun s2 => .next s2.nextByte

/-- What the host does at the ports (R231, R232, R250). -/
def hostEvent (e : HostEvent) (s : State) : Host.Outcome State Fault Refusal :=
  match e with
  | .feed chunk => .next (s.present chunk)
  | .accept => .next (if s.outValid then s.accept else s)
  | .ready level => .next (if s.consumer.isSome then s.setConsumer (some level) else s)
  | .attach => .next (if s.consumer.isSome then s else s.setConsumer (some false))
  | .readStatus k => exec (decodeAccessor k) s
  | .readRecord => readOutRecord s
  | .rst => .next s.applyReset

/-- A record is pending with no consumer attached: it is accepted at once and lost, so that a consumer attached later sees
only later records (R232, R252, D15). -/
def State.acceptsAtOnce (s : State) : Bool := s.outValid && s.consumer.isNone

/-- The host's next action comes before an acceptance or a byte that is possible too (log 4). Before an acceptance that
happens at once only `rst` does: it may come at any event boundary (R250), and loses the record as well. -/
def State.hostFirst (s : State) : Bool :=
  match s.events with
  | [] => false
  | a :: _ => a.first && (!s.acceptsAtOnce || a.event == .rst)

/-- The host's turn: its next action; with none to come nothing happens and all state is kept (R230; log 13). -/
def hostTurn (s : State) : Host.Outcome State Fault Refusal :=
  match s.events with
  | [] => .next s
  | a :: es => hostEvent a.event (s.setEvents es)

/-- The byte the block takes now, and the state with that byte taken from the port: none while `in_ready = 0` (R120) or
when nothing is presented. -/
def offered (s : State) : Option (Byte × State) :=
  match s.inReady, s.inPort with
  | true, b :: rest => some (b, s.setInPort rest)
  | _, _ => none

/-- One event: the host's next action where it comes first, `rst` at any event boundary among them (R250); else an
acceptance when `out_valid ∧ out_ready`; else a byte transaction when a byte is presented and `in_ready`; else the host's
turn (log 4). -/
def cycle (s : State) : Host.Outcome State Fault Refusal :=
  if s.hostFirst then hostTurn s
  else if s.outValid && s.outReady then .next s.accept
  else
    match offered s with
    | some (b, t) => byteTransaction b t
    | none => hostTurn s

/-- A state in which the next event is the byte transaction of `b` in parser state `p` over the buffer `m`: no record is
pending and no host action comes first. -/
def readyForByte (p : ParserState) (m : Memory) (b : Byte) (s : State) : State :=
  { s.yieldHost with parser := p, buf := m, outPending := false, outRecord := none, inPort := b :: s.inPort }

/-- A frame of the navigation length with a given header and payload and a right checksum, in the buffer of a block that
takes the `END` of `ESC END` next (R117): the next event runs the parser, and the decoder if it accepts, on it. -/
def readyForFrame (h0 h1 : Byte) (p : List Byte) (s : State) : State :=
  readyForByte .inFrameEscapeSeen (checkedFrame h0 h1 p) Config.endMarker s

/-- The payload that holds the given bytes at a field and zeros elsewhere (R72). -/
def payloadWith (f : Field) (bytes : List Byte) : List Byte :=
  List.replicate f.offset 0#8 ++ bytes ++ List.replicate (Config.navPayloadLen - f.offset - f.width) 0#8

/-- The state in which the next event runs the row of a word at its site (log 10). A step word: its state bits in `state`,
its byte presented, the buffer kept unless the pre-check would fire on it. The precheck row runs first in every byte
transaction, so any presented byte serves. A header word heads a frame of the navigation length; a field word stands in
the payload of an accepted frame. The accessor word is the flag index of a port read that comes first; a pending record
must then be held by a consumer, since it would be accepted at once without one (D15). Bytes that `decode` refuses have
no row to run: a flag-index byte of 16 or above (R211) is placed by its low four bits, the state byte of a step word by
its low two (DESIGN CHOICE, log 10). -/
def placeWord (site : Site) (bytes : List Byte) (s : State) : State :=
  match site with
  | .precheck => readyForByte s.parser s.buf (bytes.getD 0 0#8) s
  | .step =>
    readyForByte (ParserState.ofCode ((bytes.getD 1 0#8).extractLsb' 0 2))
      (if s.buf.length > s.bufMax then [] else s.buf) (bytes.getD 0 0#8) s
  | .header => readyForFrame (bytes.getD 0 0#8) (bytes.getD 1 0#8) (List.replicate Config.navPayloadLen 0#8) s
  | .field f => readyForFrame 0x00#8 0xE0#8 (payloadWith f bytes) s
  | .accessor =>
    (if s.acceptsAtOnce then s.setConsumer (some true) else s).setEvents
      ({ first := true, event := .readStatus ((bytes.getD 0 0#8).extractLsb' 0 4) } :: s.events)

/-- The state in which the next event runs the row of a word of spec/opcode_table.json. -/
def placeTableWord (nbits w : Nat) (s : State) : State :=
  match tableSite nbits w with
  | none => s
  | some site => placeWord site (tableBytes site w) s

end Sys2Proof.Machine
end

