-- ==== Sys2Proof/Machine/Step.lean ====
section
/-! DEFINITION. The step of the machine and the placing of a table word, both by the mendable definitions of
Cycle.lean. -/

namespace Sys2Proof.Machine

/-- One event of the block and its host. -/
def step (s : State) : Host.Outcome State Fault Refusal := cycle s

/-- `s` with a word of spec/opcode_table.json where the next step fetches it (log 10). -/
def State.withFetchWord (s : State) (nbits w : Nat) : State := placeTableWord nbits w s

end Sys2Proof.Machine
end

