-- ==== Sys2Proof/Safety.lean ====
section
/-! DEFINITION. What claims about runs use: several steps, the invariant of every event boundary
(spec/70_reset_and_hazards.md R259), the observation of a run and its end (R260). -/

namespace Sys2Proof.Machine

/-- `n` steps, ending at the first fault or refusal. -/
def steps : Nat → State → Host.Outcome State Fault Refusal
  | 0, s => .next s
  | n + 1, s => andThen (step s) (steps n)

/-- What holds at every event boundary: outside a frame the buffer is empty (R24, R259.1); the buffer keeps its bound, and
only `InFrame` reaches it (R25, R259.2); a record is present exactly while `OutPending = 1` (R28, R259.4); the values
inside a step are gone (R31). -/
abbrev BoundaryInv (s : State) : Prop :=
  (inFrameFlag s.parser = false → s.buf = []) ∧
  Memory.wf s.bufMax s.buf = true ∧
  (s.buf.length = s.bufMax + 1 → s.parser = .inFrame) ∧
  s.outRecord.isSome = s.outPending ∧
  s.frame = [] ∧
  s.work = Record.blank

/-- The observation of a run: the records the consumer accepted, in order (R260). -/
def delivered (s : State) : List Record :=
  s.trace.filterMap fun o =>
    match o with
    | .record r => some r
    | _ => none

/-- A run over the input has ended: every byte consumed and no record pending (R260), and the host's schedule empty. R260
speaks of runs of bytes and acceptances only; that any other host action still scheduled, such as `rst`, a port read or a
drive of `out_ready`, keeps the run from having ended is the model's (DESIGN CHOICE, log 18). -/
abbrev RunEnded (s : State) : Prop := s.inPort = [] ∧ s.events = [] ∧ s.outPending = false

end Sys2Proof.Machine
end

