-- ==== Sys2Proof/Certificates/Slice0/Obligations.lean ====
section
/-! DEFINITION. The statements for the provers. -/

open Sys2Proof Sys2Proof.Machine

/-- The 2-bit encoding of the parser state and its two Boolean views. Idle, EscapeSeen, InFrame, InFrameEscapeSeen
are 0, 1, 2, 3; every 2-bit pattern is the code of exactly one state; in_frame is bit 1 and esc_pending bit 0 of
the code. (10_state.md R21, 10_state.md R22, derived) -/
def Obligations.ParserStateEncoding : Prop :=
  (ParserState.code .idle = 0b00#2 ∧ ParserState.code .escapeSeen = 0b01#2 ∧
    ParserState.code .inFrame = 0b10#2 ∧ ParserState.code .inFrameEscapeSeen = 0b11#2) ∧
  (∀ p, ParserState.ofCode p.code = p) ∧ (∀ c, (ParserState.ofCode c).code = c) ∧
  (∀ p, inFrameFlag p = (p.code.extractLsb' 1 1 == 1#1) ∧ escPendingFlag p = (p.code.extractLsb' 0 1 == 1#1))

/-- Words written out from the encodings decode to their rows. Step words 0x010, 0x102, 0x241, 0x303, headers 00 E0,
FC E0 and 01 E0, the payload bytes of LatitudeDegrees and StatusFlags, and flag index 15 decode to the rows the
tables give; a step word with a bit above bit 9 and a flag index 16 are refused. That a step word is written as
the byte and then the state, that a flag index is one byte, and the names of the two refusals are the model's
choice (log 9). (30_encoding.md section 1 (R63), 30_encoding.md R69, 30_encoding.md R73, 43_status_accessor.md
R210, 43_status_accessor.md R211, derived) -/
def Obligations.TableWordsDecode : Prop :=
  decode .step [0x10#8, 0x00#8] = .ok .idleEsc ∧
  decode .step [0x02#8, 0x01#8] = .ok .escseenStart ∧
  decode .step [0x41#8, 0x02#8] = .ok (.inframeOther 0x41#8) ∧
  decode .step [0x03#8, 0x03#8] = .ok .inframeescEnd ∧
  decode .step [0x10#8, 0x04#8] = .error .stateBitsOutOfRange ∧
  decode .header [0x00#8, 0xE0#8] = .ok (.navAccept 0b000000#6) ∧
  decode .header [0xFC#8, 0xE0#8] = .ok (.navAccept 0b111111#6) ∧
  decode .header [0x01#8, 0xE0#8] = .ok (.hdrOther 0x01E0#16) ∧
  decode (.field .latitudeDegrees) [0x00#8, 0x00#8, 0x00#8, 0x80#8] = .ok (.navLatitudeDegrees 0x80000000#32) ∧
  decode (.field .statusFlags) [0x01#8, 0x80#8] = .ok (.navStatusFlags 0x8001#16) ∧
  decode .accessor [0x0F#8] = .ok (.isset 15#4) ∧
  decode .accessor [0x10#8] = .error .flagIndexOutOfRange

/-- Each parser state and byte select the row of the opcode map. For each of the four states, ESC, START, END and
every other byte decode to the row of the opcode map for that state and class, the class-O row carrying the
byte; the step word is state times 256 plus the byte; a byte is of class O exactly when it is none of the three
markers. (30_encoding.md R62, 30_encoding.md R63, 30_encoding.md R64, 40_framer.md R101, derived) -/
def Obligations.EveryStateAndByteSelectsItsRow : Prop :=
  (decodeStep (stepWord .idle 0x10#8) = .idleEsc ∧ decodeStep (stepWord .idle 0x02#8) = .idleStart ∧
    decodeStep (stepWord .idle 0x03#8) = .idleEnd ∧
    ∀ b : Byte, b ≠ 0x10#8 → b ≠ 0x02#8 → b ≠ 0x03#8 → decodeStep (stepWord .idle b) = .idleOther b) ∧
  (decodeStep (stepWord .escapeSeen 0x10#8) = .escseenEsc ∧ decodeStep (stepWord .escapeSeen 0x02#8) = .escseenStart ∧
    decodeStep (stepWord .escapeSeen 0x03#8) = .escseenEnd ∧
    ∀ b : Byte, b ≠ 0x10#8 → b ≠ 0x02#8 → b ≠ 0x03#8 → decodeStep (stepWord .escapeSeen b) = .escseenOther b) ∧
  (decodeStep (stepWord .inFrame 0x10#8) = .inframeEsc ∧ decodeStep (stepWord .inFrame 0x02#8) = .inframeStart ∧
    decodeStep (stepWord .inFrame 0x03#8) = .inframeEnd ∧
    ∀ b : Byte, b ≠ 0x10#8 → b ≠ 0x02#8 → b ≠ 0x03#8 → decodeStep (stepWord .inFrame b) = .inframeOther b) ∧
  (decodeStep (stepWord .inFrameEscapeSeen 0x10#8) = .inframeescEsc ∧ decodeStep (stepWord .inFrameEscapeSeen 0x02#8) = .inframeescStart ∧
    decodeStep (stepWord .inFrameEscapeSeen 0x03#8) = .inframeescEnd ∧
    ∀ b : Byte, b ≠ 0x10#8 → b ≠ 0x02#8 → b ≠ 0x03#8 → decodeStep (stepWord .inFrameEscapeSeen b) = .inframeescOther b) ∧
  (∀ p b, (stepWord p b).toNat = p.code.toNat * 256 + b.toNat) ∧
  (∀ b, classify b = .other ↔ b ≠ 0x10#8 ∧ b ≠ 0x02#8 ∧ b ≠ 0x03#8)

/-- Exactly one step row of least priority matches each 10-bit word, and the decoder answers its instruction. For
every 10-bit word one row of the table matches under its mask, every other matching row has a greater priority,
and the decoder answers that row's instruction, of the word's byte; the row has mask 0x3FF exactly when the byte
is a marker, and mask 0x300 otherwise. The decoded instruction is well formed, and encoding it writes the word
back, so the decoder drops no bit; that it is written as the byte and then the state is the model's choice (log
9). (30_encoding.md R63, 30_encoding.md R64, derived) -/
def Obligations.StepRowsMatchUnderTheirMasks : Prop :=
  ∀ w : BitVec 10,
    (∃ r ∈ stepRows, r.matches w = true ∧
      (∀ q ∈ stepRows, q.matches w = true → q.bits = r.bits ∨ r.priority < q.priority) ∧
      decodeStep w = r.instr (w.extractLsb' 0 8) ∧
      (r.mask = 0x3FF#10 ↔ otherByte (w.extractLsb' 0 8) = false) ∧
      (r.mask = 0x300#10 ↔ otherByte (w.extractLsb' 0 8) = true)) ∧
    (decodeStep w).wf = true ∧ (decodeStep w).site = .step ∧
    encode (decodeStep w) = [w.extractLsb' 0 8, (w.extractLsb' 8 2).setWidth 8]

/-- Decoding the encoding of any well-formed instruction gives it back. For every well-formed instruction of every
row, with its operands at every value the encoding admits, decoding its encoded bytes at its site answers that
instruction. The layout of the bytes (low byte first for a step word and a field, f[0] first for a header) and
the site are the model's (log 9). (30_encoding.md R63, 30_encoding.md R69, 30_encoding.md R73,
43_status_accessor.md R210, derived) -/
def Obligations.DecodeInvertsEncode : Prop :=
  ∀ i : Instr, i.wf = true → decode i.site (encode i) = .ok i

/-- The header match under mask 0x03FF is identifier 224. The identifier of a frame is a 10-bit number; the header
of a frame decodes to NAV.ACCEPT exactly when the identifier is 224, with operand h[15:10], and to HDR.OTHER
with the whole header otherwise; f[0] = 3, f[1] = 0xFF gives 1023. (30_encoding.md R68, 30_encoding.md R69,
41_dispatcher.md R143, derived) -/
def Obligations.HeaderIdentifierMatch : Prop :=
  (∀ f : List Byte, frameId f < 1024 ∧
    (frameId f = 224 → decodeHeader (headerWord f) = .navAccept ((headerWord f).extractLsb' 10 6)) ∧
    (frameId f ≠ 224 → decodeHeader (headerWord f) = .hdrOther (headerWord f))) ∧
  (∀ h0 h1 : Byte, ∀ rest, (headerWord (h0 :: h1 :: rest)).toNat = h0.toNat * 256 + h1.toNat ∧
    frameId (h0 :: h1 :: rest) = (h0.toNat % 4) * 256 + h1.toNat) ∧
  frameId [0x03#8, 0xFF#8] = 1023

/-- The overflow pre-check fires exactly when the buffer exceeds its bound. With len(buf) > BUF_MAX the pre-check
completes with the hard reset (Idle, empty buffer) and the label OVERFLOW, all else unchanged; with len(buf) <=
BUF_MAX it completes and changes nothing. Then the same byte is evaluated in Idle (the spec's decision D3). In
states with the invariant it fires only in InFrame. (40_framer.md R100, 40_framer.md R102, derived) -/
def Obligations.OverflowPrecheckHardResets : Prop :=
  (∀ s : State, s.bufMax < s.buf.length →
    exec .precheckOverflow s =
      .next { s with parser := .idle, buf := [], trace := s.trace ++ [.label s.byteIndex .overflow] }) ∧
  (∀ s : State, s.buf.length ≤ s.bufMax → exec .precheckOverflow s = .next s) ∧
  (∀ (s : State) (b : Byte), s.bufMax < s.buf.length →
    byteTransaction b s = andThen
      (exec (decodeStep (stepWord .idle b))
        { s with parser := .idle, buf := [], trace := s.trace ++ [.label s.byteIndex .overflow] })
      fun t => .next t.nextByte) ∧
  (∀ s : State, BoundaryInv s → s.bufMax < s.buf.length → s.parser = .inFrame)

/-- An ESC that is not pending sets escape-pending and touches nothing else. The word 0x010 alone decodes to
IDLE.ESC, which completes in every state: the parser state becomes EscapeSeen (escape-pending 1, in-frame 0),
everything else unchanged. INFRAME.ESC likewise makes it InFrameEscapeSeen (both 1). (R103, stated) -/
def Obligations.EscapeMarkerSetsEscapePending : Prop :=
  (∀ w, decodeStep w = .idleEsc ↔ w = 0x010#10) ∧
  (∀ s : State, exec .idleEsc s = .next { s with parser := .escapeSeen }) ∧
  escPendingFlag .escapeSeen = true ∧ inFrameFlag .escapeSeen = false ∧
  (∀ w, decodeStep w = .inframeEsc ↔ w = 0x210#10) ∧
  (∀ s : State, exec .inframeEsc s = .next { s with parser := .inFrameEscapeSeen }) ∧
  escPendingFlag .inFrameEscapeSeen = true ∧ inFrameFlag .inFrameEscapeSeen = true

/-- In Idle, START, END and other bytes change nothing. The words 0x002 and 0x003 alone decode to IDLE.START and
IDLE.END, and the words 0x000 to 0x0FF of class O to IDLE.OTHER; each completes in every state and leaves the
whole state as it is. (R104, R105, R106, stated) -/
def Obligations.BytesOutsideAFrameAreIgnored : Prop :=
  (∀ w, decodeStep w = .idleStart ↔ w = 0x002#10) ∧ (∀ s : State, exec .idleStart s = .next s) ∧
  (∀ w, decodeStep w = .idleEnd ↔ w = 0x003#10) ∧ (∀ s : State, exec .idleEnd s = .next s) ∧
  (∀ w b, decodeStep w = .idleOther b ↔ w = 0b00#2 ++ b ∧ otherByte b = true) ∧
  (∀ (b : Byte) (s : State), exec (.idleOther b) s = .next s)

/-- ESC ESC and ESC END outside a frame return to Idle. The word 0x110 alone decodes to ESCSEEN.ESC and 0x103 alone
to ESCSEEN.END; each completes in every state, the parser state becomes Idle (escape-pending and in-frame 0), no
label, no dispatch, all else unchanged. The pair ESC ESC in Idle is a no-op as a whole, and a third ESC starts a
new pending escape. (R107, R109, stated) -/
def Obligations.PendingEscapeOutsideFrameIsDropped : Prop :=
  (∀ w, decodeStep w = .escseenEsc ↔ w = 0x110#10) ∧
  (∀ s : State, exec .escseenEsc s = .next { s with parser := .idle }) ∧
  (∀ s : State, s.parser = .idle → andThen (exec .idleEsc s) (exec .escseenEsc) = .next s) ∧
  (∀ s : State, s.parser = .escapeSeen →
    andThen (exec .escseenEsc s) (exec (decodeStep (stepWord .idle 0x10#8))) = .next s) ∧
  (∀ w, decodeStep w = .escseenEnd ↔ w = 0x103#10) ∧
  (∀ s : State, exec .escseenEnd s = .next { s with parser := .idle }) ∧
  escPendingFlag .idle = false ∧ inFrameFlag .idle = false

/-- ESC START outside a frame opens a frame with an empty buffer. The word 0x102 alone decodes to ESCSEEN.START,
which completes in every state: the buffer is cleared and the parser state becomes InFrame, all else unchanged.
It is the only row that enters frame mode from outside a frame. (40_framer.md R108, derived) -/
def Obligations.EscapeStartOpensAFrame : Prop :=
  (∀ w, decodeStep w = .escseenStart ↔ w = 0x102#10) ∧
  (∀ s : State, exec .escseenStart s = .next { s with buf := [], parser := .inFrame }) ∧
  (∀ (b : Byte) (s t : State), inFrameFlag s.parser = false → byteTransaction b s = .next t →
    inFrameFlag t.parser = true → s.parser = .escapeSeen ∧ b = 0x02#8)

/-- ESC before a byte of class O abandons the frame with FRAMING_ERROR. The words 0x100 to 0x1FF of class O decode
to ESCSEEN.OTHER and 0x300 to 0x3FF of class O to INFRAMEESC.OTHER; each completes in every state: Idle, empty
buffer, the label FRAMING_ERROR with the byte's index in the model's trace, all else unchanged (the byte is
dropped). (R110, stated) -/
def Obligations.EscapeThenOtherByteIsAFramingError : Prop :=
  (∀ w b, decodeStep w = .escseenOther b ↔ w = 0b01#2 ++ b ∧ otherByte b = true) ∧
  (∀ (b : Byte) (s : State), exec (.escseenOther b) s =
    .next { s with buf := [], parser := .idle, trace := s.trace ++ [.label s.byteIndex .framingError] }) ∧
  (∀ w b, decodeStep w = .inframeescOther b ↔ w = 0b11#2 ++ b ∧ otherByte b = true) ∧
  (∀ (b : Byte) (s : State), exec (.inframeescOther b) s =
    .next { s with buf := [], parser := .idle, trace := s.trace ++ [.label s.byteIndex .framingError] }) ∧
  escPendingFlag .idle = false ∧ inFrameFlag .idle = false

/-- In a frame, START, END and other bytes are appended as data. The words 0x202 and 0x203 alone decode to
INFRAME.START and INFRAME.END, and 0x200 to 0x2FF of class O to INFRAME.OTHER; each completes in every state and
appends the byte at index len(buf); every other index of the buffer reads as before and everything else is
unchanged. An append at len(buf) = BUF_MAX makes the next byte's pre-check fire. (R112, R113, R114, stated) -/
def Obligations.LiteralBytesInFrameAreAppended : Prop :=
  (∀ w, decodeStep w = .inframeStart ↔ w = 0x202#10) ∧
  (∀ s : State, ∃ t, exec .inframeStart s = .next t ∧ t = { s with buf := s.buf ++ [0x02#8] } ∧
    readByte t.buf s.buf.length = some 0x02#8 ∧ ∀ i, i ≠ s.buf.length → readByte t.buf i = readByte s.buf i) ∧
  (∀ w, decodeStep w = .inframeEnd ↔ w = 0x203#10) ∧
  (∀ s : State, ∃ t, exec .inframeEnd s = .next t ∧ t = { s with buf := s.buf ++ [0x03#8] } ∧
    readByte t.buf s.buf.length = some 0x03#8 ∧ ∀ i, i ≠ s.buf.length → readByte t.buf i = readByte s.buf i) ∧
  (∀ w b, decodeStep w = .inframeOther b ↔ w = 0b10#2 ++ b ∧ otherByte b = true) ∧
  (∀ b : Byte, ∀ s : State, ∃ t, exec (.inframeOther b) s = .next t ∧ t = { s with buf := s.buf ++ [b] } ∧
    readByte t.buf s.buf.length = some b ∧ ∀ i, i ≠ s.buf.length → readByte t.buf i = readByte s.buf i) ∧
  (∀ (s : State) (b : Byte), s.buf.length = s.bufMax → s.bufMax < (s.append b).buf.length ∧
    exec .precheckOverflow (s.append b) = .next ((s.append b).hardReset.discard .overflow))

/-- ESC ESC inside a frame appends one literal 0x10. The word 0x310 alone decodes to INFRAMEESC.ESC, which completes
in every state: one byte 0x10 appended at index len(buf), every other index as before, the parser state InFrame,
all else unchanged. An append at len(buf) = BUF_MAX makes the next byte's pre-check fire. (R115, stated) -/
def Obligations.DoubledEscapeAppendsOneEscape : Prop :=
  (∀ w, decodeStep w = .inframeescEsc ↔ w = 0x310#10) ∧
  (∀ s : State, ∃ t, exec .inframeescEsc s = .next t ∧
    t = { s with buf := s.buf ++ [0x10#8], parser := .inFrame } ∧
    readByte t.buf s.buf.length = some 0x10#8 ∧
    (∀ i, i ≠ s.buf.length → readByte t.buf i = readByte s.buf i) ∧
    (s.buf.length = s.bufMax → exec .precheckOverflow t = .next (t.hardReset.discard .overflow))) ∧
  escPendingFlag .inFrame = false ∧ inFrameFlag .inFrame = true

/-- ESC START inside a frame discards the frame in progress and opens a new one. The word 0x302 alone decodes to
INFRAMEESC.START, which completes in every state: label RESTART (whether or not the buffer was empty), empty
buffer, InFrame, all else unchanged; a buffer of exactly BUF_MAX bytes restarts without overflow. (R116, stated) -/
def Obligations.EscapeStartInsideAFrameRestarts : Prop :=
  (∀ w, decodeStep w = .inframeescStart ↔ w = 0x302#10) ∧
  (∀ s : State, exec .inframeescStart s =
    .next { s with buf := [], parser := .inFrame, trace := s.trace ++ [.label s.byteIndex .restart] }) ∧
  (∀ s : State, s.parser = .inFrameEscapeSeen → s.buf.length = s.bufMax →
    byteTransaction 0x02#8 s = .next
      { s with
        buf := [], parser := .inFrame, trace := s.trace ++ [.label s.byteIndex .restart],
        byteIndex := s.byteIndex + 1 }) ∧
  escPendingFlag .inFrame = false ∧ inFrameFlag .inFrame = true

/-- ESC END in a frame runs the parser: one record of an accepted frame, else one label. INFRAMEESC.END completes in
every state: the buffer is cleared and the state is Idle; if xor(f) = 0, N = 93, f[0][1:0] = 0 and f[1] = 0xE0
for f the old buffer, OutRecord is the decoded payload f[2:92] and OutPending is 1; otherwise the trace gets the
label of the first failing stage (CHECKSUM, LENGTH for a short frame, ID, LENGTH). Nothing else changes, and the
values inside the step are gone. (40_framer.md R117, 41_dispatcher.md R140, 41_dispatcher.md R147,
41_dispatcher.md R149, 41_dispatcher.md R151, 10_state.md R31, derived) -/
def Obligations.CompletedFrameEmitsOrIsDiscarded : Prop :=
  ∀ s : State, exec .inframeescEnd s =
    .next (if accepted s.buf = true then
        { s with
          parser := .idle, buf := [], frame := [], work := Record.blank, outPending := true,
          outRecord := some (decodePayload (payload s.buf)) }
      else
        { s with
          parser := .idle, buf := [], frame := [], work := Record.blank,
          trace := s.trace ++ [.label s.byteIndex
            (if xorAll s.buf ≠ 0#8 then .checksum
             else if s.buf.length < 2 then .length
             else if frameId s.buf ≠ 224 then .ident
             else .length)] })

/-- NAV.ACCEPT on a frame of 93 bytes emits the decoded payload, on another length discards. With a frame of 93
bytes in hand NAV.ACCEPT completes: OutRecord is the decoded payload, OutPending 1, whatever the header bits 15
to 10; with any other length it completes with the label LENGTH. Nothing else changes but the record under
decode. That the row itself runs on another length, with R145's stage inside it, is the model's reading of the
table (log 14, DEDUCED); the record under decode is the model's (log 7). (41_dispatcher.md R145,
41_dispatcher.md R146, 41_dispatcher.md R148, derived) -/
def Obligations.NavAcceptEmitsTheDecodedRecord : Prop :=
  (∀ (x : BitVec 6) (s : State), s.frame.length = 93 → exec (.navAccept x) s =
    .next { s with
      work := decodePayload (payload s.frame), outPending := true,
      outRecord := some (decodePayload (payload s.frame)) }) ∧
  (∀ (x : BitVec 6) (s : State), s.frame.length ≠ 93 → exec (.navAccept x) s =
    .next { s with trace := s.trace ++ [.label s.byteIndex .length] })

/-- HDR.OTHER discards the frame with the label ID. HDR.OTHER completes in every state with the label ID and changes
nothing else. (41_dispatcher.md R144, derived) -/
def Obligations.OtherIdentifierIsDiscarded : Prop :=
  ∀ (h : BitVec 16) (s : State), exec (.hdrOther h) s =
    .next { s with trace := s.trace ++ [.label s.byteIndex .ident] }

/-- The parser runs the row its frame header decodes to. For a frame of two or more bytes with XOR 0, dispatch is
exec of the row the header decodes to, on the state with that frame in hand; a frame with XOR not 0 gives
CHECKSUM and a shorter one LENGTH. (41_dispatcher.md R140, 30_encoding.md R69, derived) -/
def Obligations.DispatchRunsTheHeaderRow : Prop :=
  (∀ (f : List Byte) (s : State), xorAll f = 0#8 → 2 ≤ f.length →
    dispatch f s = exec (decodeHeader (headerWord f)) (s.setFrame f)) ∧
  (∀ (f : List Byte) (s : State), xorAll f ≠ 0#8 → dispatch f s = .next (s.discard .checksum)) ∧
  (∀ (f : List Byte) (s : State), xorAll f = 0#8 → f.length < 2 → dispatch f s = .next (s.discard .length))

/-- A frame built with its checksum is accepted whatever header bits 7 to 2 hold. For every payload of 90 bytes and
header byte with bits 1..0 zero, [h0, E0] ++ P ++ [xor] has XOR 0 and is accepted, its payload view is P, and
completing it emits decode(P), with no trace of h0; with any other low header bits it is discarded with ID.
(30_encoding.md R70, 41_dispatcher.md R148, 30_encoding.md R76, derived) -/
def Obligations.CheckedNavigationFrameIsAccepted : Prop :=
  ∀ (h0 : Byte) (p : List Byte), p.length = 90 →
    xorAll (checkedFrame h0 0xE0#8 p) = 0#8 ∧
    payload (checkedFrame h0 0xE0#8 p) = p ∧
    (h0.extractLsb' 0 2 = 0#2 → accepted (checkedFrame h0 0xE0#8 p) = true ∧
      ∀ s : State, dispatch (checkedFrame h0 0xE0#8 p) s =
        .next (((s.setFrame (checkedFrame h0 0xE0#8 p)).setWork (decodePayload p)).emit (decodePayload p))) ∧
    (h0.extractLsb' 0 2 ≠ 0#2 → ∀ s : State, dispatch (checkedFrame h0 0xE0#8 p) s =
        .next ((s.setFrame (checkedFrame h0 0xE0#8 p)).discard .ident))

/-- The payload is bytes 2 to 91 of an accepted frame. For every accepted frame, the payload view has 90 bytes and
its byte i is f[i+2]; the checksum byte f[92] is not in it. (R44, stated) -/
def Obligations.PayloadViewOfAnAcceptedFrame : Prop :=
  ∀ f : List Byte, accepted f = true →
    f.length = 93 ∧ (payload f).length = 90 ∧ (∀ i, i < 90 → (payload f)[i]? = f[i + 2]?) ∧
    (∀ i, 90 ≤ i → (payload f)[i]? = none)

/-- Inverting any one bit of an accepted frame gives a CHECKSUM discard. For every accepted frame, byte index and
bit: with that bit inverted the frame is not accepted, and dispatch discards it with CHECKSUM. (41_dispatcher.md
R150, derived) -/
def Obligations.SingleBitErrorsAreRejected : Prop :=
  ∀ (f : List Byte) (i k : Nat), accepted f = true → i < f.length → k < 8 →
    accepted (f.set i (f.getD i 0#8 ^^^ (1#8 <<< k))) = false ∧
    ∀ s : State, dispatch (f.set i (f.getD i 0#8 ^^^ (1#8 <<< k))) s = .next (s.discard .checksum)

/-- The fourteen 16-bit field rows store their pattern in their own field. Each of NAV.AltitudeMetres, RollDegrees,
PitchDegrees, HeadingDegrees, the three velocities, angular rates and accelerations, and StatusFlags completes
in every state: the record under decode gets the word in that field; every other field and all else unchanged.
(42_field_decoder.md R170 to R182, 42_field_decoder.md R194, 42_field_decoder.md R160, derived) -/
def Obligations.SixteenBitFieldRowsStoreTheirPattern : Prop :=
  (∀ v (s : State), exec (.navAltitudeMetres v) s = .next { s with work := { s.work with altitudeMetres := v } }) ∧
  (∀ v (s : State), exec (.navRollDegrees v) s = .next { s with work := { s.work with rollDegrees := v } }) ∧
  (∀ v (s : State), exec (.navPitchDegrees v) s = .next { s with work := { s.work with pitchDegrees := v } }) ∧
  (∀ v (s : State), exec (.navHeadingDegrees v) s = .next { s with work := { s.work with headingDegrees := v } }) ∧
  (∀ v (s : State), exec (.navVelocityNorth v) s = .next { s with work := { s.work with velocityNorth := v } }) ∧
  (∀ v (s : State), exec (.navVelocityEast v) s = .next { s with work := { s.work with velocityEast := v } }) ∧
  (∀ v (s : State), exec (.navVelocityDown v) s = .next { s with work := { s.work with velocityDown := v } }) ∧
  (∀ v (s : State), exec (.navAngularRateFwd v) s = .next { s with work := { s.work with angularRateFwd := v } }) ∧
  (∀ v (s : State), exec (.navAngularRateStarboard v) s = .next { s with work := { s.work with angularRateStarboard := v } }) ∧
  (∀ v (s : State), exec (.navAngularRateDown v) s = .next { s with work := { s.work with angularRateDown := v } }) ∧
  (∀ v (s : State), exec (.navAccelerationFwd v) s = .next { s with work := { s.work with accelerationFwd := v } }) ∧
  (∀ v (s : State), exec (.navAccelerationStarboard v) s = .next { s with work := { s.work with accelerationStarboard := v } }) ∧
  (∀ v (s : State), exec (.navAccelerationDown v) s = .next { s with work := { s.work with accelerationDown := v } }) ∧
  (∀ v (s : State), exec (.navStatusFlags v) s = .next { s with work := { s.work with statusFlags := v } })

/-- The 32-bit and 48-bit integer field rows store their pattern in their own field. NAV.LatitudeDegrees,
LongitudeDegrees, DepthMetres and TimeOfValidity complete in every state: the record under decode gets the word
in that field; every other field and all else unchanged. (42_field_decoder.md R166 to R169, 42_field_decoder.md
R160, derived) -/
def Obligations.WideIntegerFieldRowsStoreTheirPattern : Prop :=
  (∀ v (s : State), exec (.navLatitudeDegrees v) s = .next { s with work := { s.work with latitudeDegrees := v } }) ∧
  (∀ v (s : State), exec (.navLongitudeDegrees v) s = .next { s with work := { s.work with longitudeDegrees := v } }) ∧
  (∀ v (s : State), exec (.navDepthMetres v) s = .next { s with work := { s.work with depthMetres := v } }) ∧
  (∀ v (s : State), exec (.navTimeOfValidity v) s = .next { s with work := { s.work with timeOfValidity := v } })

/-- The eleven binary32 field rows store their pattern bit for bit. NAV.ErrorEstimate0 to NAV.ErrorEstimate10
complete in every state: the record under decode gets the 32-bit pattern in that field unchanged (no NaN
quieting, no conversion); every other field and all else unchanged. (42_field_decoder.md R163,
42_field_decoder.md R183 to R193, derived) -/
def Obligations.ErrorEstimateRowsStoreTheirPattern : Prop :=
  (∀ v (s : State), exec (.navErrorEstimate0 v) s = .next { s with work := { s.work with errorEstimate0 := v } }) ∧
  (∀ v (s : State), exec (.navErrorEstimate1 v) s = .next { s with work := { s.work with errorEstimate1 := v } }) ∧
  (∀ v (s : State), exec (.navErrorEstimate2 v) s = .next { s with work := { s.work with errorEstimate2 := v } }) ∧
  (∀ v (s : State), exec (.navErrorEstimate3 v) s = .next { s with work := { s.work with errorEstimate3 := v } }) ∧
  (∀ v (s : State), exec (.navErrorEstimate4 v) s = .next { s with work := { s.work with errorEstimate4 := v } }) ∧
  (∀ v (s : State), exec (.navErrorEstimate5 v) s = .next { s with work := { s.work with errorEstimate5 := v } }) ∧
  (∀ v (s : State), exec (.navErrorEstimate6 v) s = .next { s with work := { s.work with errorEstimate6 := v } }) ∧
  (∀ v (s : State), exec (.navErrorEstimate7 v) s = .next { s with work := { s.work with errorEstimate7 := v } }) ∧
  (∀ v (s : State), exec (.navErrorEstimate8 v) s = .next { s with work := { s.work with errorEstimate8 := v } }) ∧
  (∀ v (s : State), exec (.navErrorEstimate9 v) s = .next { s with work := { s.work with errorEstimate9 := v } }) ∧
  (∀ v (s : State), exec (.navErrorEstimate10 v) s = .next { s with work := { s.work with errorEstimate10 := v } })

/-- The 29 field rows, in any order, assemble the decoded record. For every payload and every order of the 29
fields: running each field's row, decoded from its payload bytes, from any state completes and leaves decode(p)
as the record under decode, all else unchanged. (20_memory.md R50, 42_field_decoder.md R160, 42_field_decoder.md
R195, derived) -/
def Obligations.FieldRowsInAnyOrderDecodeThePayload : Prop :=
  ∀ (p : List Byte) (l : List Field) (s : State), l.Perm Field.all →
    l.foldl (fun o f => andThen o (exec (fieldInstr f (fieldBytes f p)))) (.next s) =
      .next { s with work := decodePayload p }

/-- Unsigned extraction is the sum of bytes times powers of 256, below 2 to the 8n. For every byte sequence, offset
and n, u(o, n) = le(MemRead(o, n)) = the sum of the bytes times powers of 256, and it is below 2^(8n); the
decoder's u16 and u48 fields are u(o, 2) and u(o, 6) at their offsets. (The spec marks the little-endian sum as
general knowledge, G2; log 15, PRESUMED.) (42_field_decoder.md R161, 00_scope.md R13, 42_field_decoder.md R166,
42_field_decoder.md R170, 42_field_decoder.md R173, 42_field_decoder.md R194, derived) -/
def Obligations.UnsignedExtractionRange : Prop :=
  (∀ (p : List Byte) (o n : Nat), extractU p o n = le ((p.drop o).take n) ∧ extractU p o n < 2 ^ (8 * n)) ∧
  (∀ l : List Byte, le l = ((List.range l.length).map fun i => (l.getD i 0#8).toNat * 256 ^ i).sum) ∧
  (∀ p : List Byte, (fieldRaw (decodePayload p) .timeOfValidity = extractU p 0 6) ∧
    fieldRaw (decodePayload p) .altitudeMetres = extractU p 18 2 ∧
    fieldRaw (decodePayload p) .headingDegrees = extractU p 24 2 ∧
    fieldRaw (decodePayload p) .statusFlags = extractU p 88 2)

/-- Signed extraction is two's complement and in range. For every byte sequence, offset and n >= 1, s(o, n) lies in
-2^(8n-1) .. 2^(8n-1) - 1 and agrees with u(o, n) modulo 2^(8n). (The spec marks the two's-complement reading of
"signed" as general knowledge, G1; log 15, PRESUMED.) (42_field_decoder.md R162, 00_scope.md R12, derived) -/
def Obligations.SignedExtractionRange : Prop :=
  ∀ (p : List Byte) (o n : Nat), 1 ≤ n →
    -(2 : Int) ^ (8 * n - 1) ≤ extractS p o n ∧ extractS p o n < (2 : Int) ^ (8 * n - 1) ∧
    (extractS p o n - (extractU p o n : Int)) % (2 : Int) ^ (8 * n) = 0

/-- Every field of a decoded payload is the extraction at its own offset, width and signedness. For every payload,
the raw value of each of the 29 fields of decode(p) is u, s or g at the field's offset and width.
(30_encoding.md R72, 30_encoding.md R73, 42_field_decoder.md R166 to R194, derived) -/
def Obligations.RawFieldValuesOfADecodedPayload : Prop :=
  ∀ p : List Byte,
    fieldRaw (decodePayload p) .timeOfValidity = extractU p 0 6 ∧
    fieldRaw (decodePayload p) .latitudeDegrees = extractS p 6 4 ∧
    fieldRaw (decodePayload p) .longitudeDegrees = extractS p 10 4 ∧
    fieldRaw (decodePayload p) .depthMetres = extractS p 14 4 ∧
    fieldRaw (decodePayload p) .altitudeMetres = extractU p 18 2 ∧
    fieldRaw (decodePayload p) .rollDegrees = extractS p 20 2 ∧
    fieldRaw (decodePayload p) .pitchDegrees = extractS p 22 2 ∧
    fieldRaw (decodePayload p) .headingDegrees = extractU p 24 2 ∧
    fieldRaw (decodePayload p) .velocityNorth = extractS p 26 2 ∧
    fieldRaw (decodePayload p) .velocityEast = extractS p 28 2 ∧
    fieldRaw (decodePayload p) .velocityDown = extractS p 30 2 ∧
    fieldRaw (decodePayload p) .angularRateFwd = extractS p 32 2 ∧
    fieldRaw (decodePayload p) .angularRateStarboard = extractS p 34 2 ∧
    fieldRaw (decodePayload p) .angularRateDown = extractS p 36 2 ∧
    fieldRaw (decodePayload p) .accelerationFwd = extractS p 38 2 ∧
    fieldRaw (decodePayload p) .accelerationStarboard = extractS p 40 2 ∧
    fieldRaw (decodePayload p) .accelerationDown = extractS p 42 2 ∧
    fieldRaw (decodePayload p) .errorEstimate0 = (le (memRead p 44 4) : Int) ∧
    fieldRaw (decodePayload p) .errorEstimate1 = (le (memRead p 48 4) : Int) ∧
    fieldRaw (decodePayload p) .errorEstimate2 = (le (memRead p 52 4) : Int) ∧
    fieldRaw (decodePayload p) .errorEstimate3 = (le (memRead p 56 4) : Int) ∧
    fieldRaw (decodePayload p) .errorEstimate4 = (le (memRead p 60 4) : Int) ∧
    fieldRaw (decodePayload p) .errorEstimate5 = (le (memRead p 64 4) : Int) ∧
    fieldRaw (decodePayload p) .errorEstimate6 = (le (memRead p 68 4) : Int) ∧
    fieldRaw (decodePayload p) .errorEstimate7 = (le (memRead p 72 4) : Int) ∧
    fieldRaw (decodePayload p) .errorEstimate8 = (le (memRead p 76 4) : Int) ∧
    fieldRaw (decodePayload p) .errorEstimate9 = (le (memRead p 80 4) : Int) ∧
    fieldRaw (decodePayload p) .errorEstimate10 = (le (memRead p 84 4) : Int) ∧
    fieldRaw (decodePayload p) .statusFlags = extractU p 88 2

/-- Each integer field's physical value is raw times num over den, exactly. For every record: the physical value of
each field is the exact rational of its scale rule, and the binary32 fields are not scaled. (42_field_decoder.md
R164, 30_encoding.md R72, derived) -/
def Obligations.PhysicalValuesAreExactRationals : Prop :=
  ∀ r : Record,
    fieldPhys r .timeOfValidity = some ((fieldRaw r .timeOfValidity : Rat)) ∧
    fieldPhys r .latitudeDegrees = some ((fieldRaw r .latitudeDegrees : Rat) * 90 / 2 ^ 31) ∧
    fieldPhys r .longitudeDegrees = some ((fieldRaw r .longitudeDegrees : Rat) * 180 / 2 ^ 31) ∧
    fieldPhys r .depthMetres = some ((fieldRaw r .depthMetres : Rat) / 1000) ∧
    fieldPhys r .altitudeMetres = some ((fieldRaw r .altitudeMetres : Rat) / 100) ∧
    fieldPhys r .rollDegrees = some ((fieldRaw r .rollDegrees : Rat) * 180 / 2 ^ 15) ∧
    fieldPhys r .pitchDegrees = some ((fieldRaw r .pitchDegrees : Rat) * 180 / 2 ^ 15) ∧
    fieldPhys r .headingDegrees = some ((fieldRaw r .headingDegrees : Rat) * 180 / 2 ^ 15) ∧
    fieldPhys r .velocityNorth = some ((fieldRaw r .velocityNorth : Rat) / 1000) ∧
    fieldPhys r .velocityEast = some ((fieldRaw r .velocityEast : Rat) / 1000) ∧
    fieldPhys r .velocityDown = some ((fieldRaw r .velocityDown : Rat) / 1000) ∧
    fieldPhys r .angularRateFwd = some ((fieldRaw r .angularRateFwd : Rat) / 100) ∧
    fieldPhys r .angularRateStarboard = some ((fieldRaw r .angularRateStarboard : Rat) / 100) ∧
    fieldPhys r .angularRateDown = some ((fieldRaw r .angularRateDown : Rat) / 100) ∧
    fieldPhys r .accelerationFwd = some ((fieldRaw r .accelerationFwd : Rat) / 1000) ∧
    fieldPhys r .accelerationStarboard = some ((fieldRaw r .accelerationStarboard : Rat) / 1000) ∧
    fieldPhys r .accelerationDown = some ((fieldRaw r .accelerationDown : Rat) / 1000) ∧
    fieldPhys r .errorEstimate0 = none ∧
    fieldPhys r .errorEstimate1 = none ∧
    fieldPhys r .errorEstimate2 = none ∧
    fieldPhys r .errorEstimate3 = none ∧
    fieldPhys r .errorEstimate4 = none ∧
    fieldPhys r .errorEstimate5 = none ∧
    fieldPhys r .errorEstimate6 = none ∧
    fieldPhys r .errorEstimate7 = none ∧
    fieldPhys r .errorEstimate8 = none ∧
    fieldPhys r .errorEstimate9 = none ∧
    fieldPhys r .errorEstimate10 = none ∧
    fieldPhys r .statusFlags = some ((fieldRaw r .statusFlags : Rat))

/-- LatitudeDegrees: raw is s(6, 4), phys is raw x 90 / 2^31 in its range. For every payload of 90 bytes: the
LatitudeDegrees word is bytes 6..9, its row completes, raw = s(6, 4), phys = raw x 90 / 2^31, from -90 to 90 -
90/2^31; bytes 00 00 00 80 give -90, FF FF FF FF give -90/2^31, 11 11 11 11 give raw 286331153. (R167, stated) -/
def Obligations.LatitudeIsSignedAndScaledByNinety : Prop :=
  (∀ p : List Byte, p.length = 90 →
    fieldBytes .latitudeDegrees p = (p.drop 6).take 4 ∧
    fieldInstr .latitudeDegrees (fieldBytes .latitudeDegrees p) =
      .navLatitudeDegrees (decodePayload p).latitudeDegrees ∧
    fieldRaw (decodePayload p) .latitudeDegrees = extractS p 6 4 ∧
    ∃ q : Rat, fieldPhys (decodePayload p) .latitudeDegrees = some q ∧ q = (extractS p 6 4 : Rat) * 90 / 2 ^ 31 ∧
      -90 ≤ q ∧ q ≤ 90 - 90 / 2 ^ 31 ∧
      ((p.drop 6).take 4 = [0x00#8, 0x00#8, 0x00#8, 0x80#8] → q = -90) ∧
      ((p.drop 6).take 4 = [0xFF#8, 0xFF#8, 0xFF#8, 0xFF#8] → q = -90 / 2 ^ 31) ∧
      ((p.drop 6).take 4 = [0x11#8, 0x11#8, 0x11#8, 0x11#8] →
        extractS p 6 4 = 286331153 ∧ q = 12884901885 / 1073741824)) ∧
  (∀ v (s : State), exec (.navLatitudeDegrees v) s = .next { s with work := { s.work with latitudeDegrees := v } })

/-- HeadingDegrees is unsigned, RollDegrees signed, both scaled by 180 / 2^15. For every payload of 90 bytes:
HeadingDegrees has raw = u(24, 2) and phys = raw x 180 / 2^15 in 0 .. 359.9945068359375; RollDegrees has raw =
s(20, 2) and phys in -180 .. 180 - 180/2^15; the bytes 00 80 give +180 as heading and -180 as roll. (R173,
stated) -/
def Obligations.HeadingIsUnsignedWhereRollIsSigned : Prop :=
  (∀ p : List Byte, p.length = 90 →
    fieldBytes .headingDegrees p = (p.drop 24).take 2 ∧
    fieldInstr .headingDegrees (fieldBytes .headingDegrees p) = .navHeadingDegrees (decodePayload p).headingDegrees ∧
    fieldRaw (decodePayload p) .headingDegrees = extractU p 24 2 ∧
    (∃ q : Rat, fieldPhys (decodePayload p) .headingDegrees = some q ∧ q = (extractU p 24 2 : Rat) * 180 / 2 ^ 15 ∧
      0 ≤ q ∧ q ≤ 65535 * 180 / 32768 ∧
      ((p.drop 24).take 2 = [0x00#8, 0x80#8] → q = 180) ∧
      ((p.drop 24).take 2 = [0xFF#8, 0xFF#8] → q = 65535 * 180 / 32768) ∧
      ((p.drop 24).take 2 = [0xE3#8, 0x18#8] → extractU p 24 2 = 6371 ∧ q = 286695 / 8192)) ∧
    (∃ q : Rat, fieldPhys (decodePayload p) .rollDegrees = some q ∧ q = (extractS p 20 2 : Rat) * 180 / 2 ^ 15 ∧
      -180 ≤ q ∧ q ≤ 180 - 180 / 2 ^ 15 ∧
      ((p.drop 20).take 2 = [0x00#8, 0x80#8] → q = -180))) ∧
  (∀ v (s : State), exec (.navHeadingDegrees v) s = .next { s with work := { s.work with headingDegrees := v } })

/-- The fields with a power-of-two denominator are exact in binary64. For every record, the physical values of
TimeOfValidity, LatitudeDegrees, LongitudeDegrees, RollDegrees, PitchDegrees, HeadingDegrees and StatusFlags are
an integer below 2^53 in magnitude over a power of two of at most 2^31, and the reference conversion is exact on
them: the binary64 pattern nearest to the value stands for that value. It is stated of the reference conversion,
because REAL_CONV itself is open (log 3); the layout of a binary64 pattern is IEEE-754's and not the spec's (log
17, PRESUMED). (42_field_decoder.md R196, 42_field_decoder.md R165, derived) -/
def Obligations.AngleAndTimeFieldsAreExactInBinary64 : Prop :=
  ∀ (r : Record), ∀ f ∈ ([.timeOfValidity, .latitudeDegrees, .longitudeDegrees, .rollDegrees, .pitchDegrees,
      .headingDegrees, .statusFlags] : List Field),
    (∃ (m : Int) (k : Nat), m.natAbs < 2 ^ 53 ∧ k ≤ 31 ∧ fieldPhys r f = some ((m : Rat) / 2 ^ k)) ∧
    ∃ x : Rat, fieldPhys r f = some x ∧ binary64Value (binary64Nearest x) = some x

/-- A read of the out_record port shows the pending record, packed as its payload, little-endian. With a record r
pending, a read of the port completes, shows the 720 bits of r (in the trace, log 6) and changes nothing else;
with OutPending = 0 it faults (the reader's fault of I5, log 11). For every payload of 90 bytes, the 720 bits of
decode(p) are le(p); and for every record, the field at offset o and width w stands at bits 8o to 8(o+w)-1.
(60_exceptions.md R231, 60_exceptions.md R232, 93_implementation_defined.md I5, 20_memory.md R45, 20_memory.md
R47, derived) -/
def Obligations.OutRecordPortIsTheLittleEndianPayload : Prop :=
  (∀ (s : State) (r : Record), s.outPending = true → s.outRecord = some r →
    readOutRecord s = .next { s with trace := s.trace ++ [.outRecord r.packed] }) ∧
  (∀ s : State, s.outPending = false → readOutRecord s = .fault .outRecordHasNoValue) ∧
  (∀ p : List Byte, p.length = 90 → (decodePayload p).packed.toNat = le p) ∧
  (∀ (r : Record) (f : Field), r.packed.toNat / 2 ^ (8 * f.offset) % 2 ^ (8 * f.width) = r.bits f)

/-- A binary32 pattern reads as IEEE-754 gives. For every 32-bit pattern with sign s, biased exponent e and fraction
m: finite with magnitude 2^(e-127) x (1 + m/2^23) for 1 <= e <= 254, 2^(-126) x (m/2^23) for e = 0 (a zero keeps
its sign), infinity for e = 255 and m = 0, NaN otherwise, quiet exactly when fraction bit 22 is 1. (The spec
marks this reading as general knowledge.) (42_field_decoder.md R163, derived) -/
def Obligations.Binary32PatternsReadAsIeee754 : Prop :=
  ∀ w : BitVec 32,
    let s := w.getLsbD 31
    let e := (w.extractLsb' 23 8).toNat
    let m := (w.extractLsb' 0 23).toNat
    (1 ≤ e ∧ e ≤ 254 → binary32 w = .finite s ((2 : Rat) ^ ((e : Int) - 127) * (1 + (m : Rat) / 2 ^ 23))) ∧
    (e = 0 → binary32 w = .finite s ((2 : Rat) ^ (-126 : Int) * ((m : Rat) / 2 ^ 23))) ∧
    (e = 255 ∧ m = 0 → binary32 w = .infinity s) ∧
    (e = 255 ∧ m ≠ 0 → binary32 w = .nan (w.getLsbD 22))

/-- ISSET reads one bit of StatusFlags of the pending record and changes no block state. While OutPending = 1 with a
record r, ISSET k completes: the block is unchanged and the host reads StatusFlags[k], which the trace shows
(log 6). While OutPending = 0 the read faults (the reader's fault of I5). (43_status_accessor.md R210,
60_exceptions.md R232, 93_implementation_defined.md I5, derived) -/
def Obligations.IsSetReadsThePendingRecord : Prop :=
  (∀ (k : BitVec 4) (s : State) (r : Record), s.outPending = true → s.outRecord = some r →
    exec (.isset k) s =
      .next { s with trace := s.trace ++ [.statusBit k (r.statusFlags.getLsbD k.toNat)] }) ∧
  (∀ (k : BitVec 4) (s : State), s.outPending = false → exec (.isset k) s = .fault .statusBitHasNoValue)

/-- StatusFlags is the sum of its independent bits. For every record, StatusFlags is the sum over k = 0..15 of
isSet(rec, k) times 2^k. (43_status_accessor.md R214, 43_status_accessor.md R213, derived) -/
def Obligations.StatusFlagsIsTheSumOfItsBits : Prop :=
  ∀ r : Record, r.statusFlags.toNat =
    ((List.range 16).map fun k => (isSet r (BitVec.ofNat 4 k)).toNat * 2 ^ k).sum

/-- Flag k is bit k of payload byte 88, or bit k - 8 of payload byte 89. For every payload of 90 bytes and flag
index k, isSet(decode(p), k) is p[88][k:k] for k < 8 and p[89][k-8:k-8] otherwise; so k = 15 reads p[89][7:7]
and k = 0 reads p[88][0:0], reserved bits like any other. (43_status_accessor.md R210, 42_field_decoder.md R194,
derived) -/
def Obligations.StatusBitsComeFromPayloadBytes88And89 : Prop :=
  ∀ (p : List Byte) (k : BitVec 4), p.length = 90 →
    isSet (decodePayload p) k =
      if k.toNat < 8 then (p.getD 88 0#8).getLsbD k.toNat else (p.getD 89 0#8).getLsbD (k.toNat - 8)

/-- The two named flags have distinct positions, whatever they are. ORIENT_NOT_SETTLED_BIT and POS_INVALID_BIT
differ, for every value of the open parameters; each named flag is isSet at its position (log 2).
(43_status_accessor.md R212, 00_scope.md R8, derived) -/
def Obligations.NamedFlagPositionsAreDistinct : Prop :=
  Config.orientNotSettledBit ≠ Config.posInvalidBit ∧
  ∀ r : Record, orientationNotSettled r = r.statusFlags.getLsbD Config.orientNotSettledBit.toNat ∧
    positionInvalid r = r.statusFlags.getLsbD Config.posInvalidBit.toNat

/-- A step with a byte to take runs the row its word decodes to. With OutPending = 0 and byte b presented: when
len(buf) <= BUF_MAX, the step is exec of the row that (state, b) decodes to, on the state with b taken, and then
the model's byte index moves on; when len(buf) > BUF_MAX the pre-check row runs first and b is decoded in Idle.
A port read of flag k, when it comes first (and no record is pending with no consumer, D15) or no acceptance and
no byte is possible, is exec of the row k decodes to, and a read of out_record is the read of that port. Which
of a host action and a possible acceptance or byte comes first is in the host's schedule, which is the model's
(log 4). (40_framer.md R101, 40_framer.md R119, 40_framer.md R120, derived) -/
def Obligations.StepRunsTheDecodedRow : Prop :=
  (∀ (s : State) (b : Byte) (rest : List Byte), s.hostFirst = false → s.outPending = false →
    s.inPort = b :: rest → s.buf.length ≤ s.bufMax →
    step s = andThen (exec (decodeStep (stepWord s.parser b)) { s with inPort := rest })
      fun t => .next { t with byteIndex := t.byteIndex + 1 }) ∧
  (∀ (s : State) (b : Byte) (rest : List Byte), s.hostFirst = false → s.outPending = false →
    s.inPort = b :: rest → s.bufMax < s.buf.length →
    step s = andThen (exec .precheckOverflow { s with inPort := rest }) fun t =>
      andThen (exec (decodeStep (stepWord .idle b)) t) fun u => .next { u with byteIndex := u.byteIndex + 1 }) ∧
  (∀ (s : State) (first : Bool) (k : BitVec 4) (es : List HostAction),
    (first = true ∧ s.acceptsAtOnce = false ∨ s.outPending = true ∧ s.outReady = false ∨
      s.outPending = false ∧ s.inPort = []) →
    s.events = ⟨first, .readStatus k⟩ :: es →
    step s = exec (decodeAccessor k) { s with events := es }) ∧
  (∀ (s : State) (first : Bool) (es : List HostAction),
    (first = true ∧ s.acceptsAtOnce = false ∨ s.outPending = true ∧ s.outReady = false ∨
      s.outPending = false ∧ s.inPort = []) →
    s.events = ⟨first, .readRecord⟩ :: es →
    step s = readOutRecord { s with events := es })

/-- Every step keeps the invariant of the event boundaries. From every state with the invariant (outside a frame the
buffer is empty; len(buf) <= BUF_MAX + 1, and BUF_MAX + 1 only in InFrame; a record is present exactly while
OutPending = 1; no frame snapshot and no record under decode, which is the model's way of holding them, log 7),
a step that answers a next state answers one with the invariant. (70_reset_and_hazards.md R259, 10_state.md R24,
10_state.md R25, 10_state.md R28, 10_state.md R31, derived) -/
def Obligations.EveryStepKeepsTheInvariant : Prop :=
  ∀ s t : State, BoundaryInv s → step s = .next t → BoundaryInv t

/-- The reset state has the values of the reset table and the invariant. State.reset is Idle, empty buffer,
OutPending 0, OutRecord absent; it has the invariant; BUF_MAX is at its default 4096, and a host that does
nothing, no consumer, an empty trace (the model's choices, logs 4 to 7). (10_state.md R33,
70_reset_and_hazards.md R250, 70_reset_and_hazards.md R251, derived) -/
def Obligations.ResetStateHoldsTheResetValues : Prop :=
  State.reset.parser = .idle ∧ State.reset.buf = [] ∧ State.reset.outPending = false ∧
  State.reset.outRecord = none ∧ State.reset.bufMax = 4096 ∧ BoundaryInv State.reset ∧
  State.reset.inPort = [] ∧ State.reset.events = [] ∧ State.reset.consumer = none ∧ State.reset.trace = []

/-- rst sets the reset values at any event boundary and drops a pending record silently. In every state, whatever is
pending or presented and whatever out_ready is, an rst that comes first is the step, and so is one that waits
once no acceptance and no byte is possible (the schedule is the model's, log 4). It completes: Idle, empty
buffer, OutPending 0, OutRecord absent, no label; a pending record is lost, never delivered. That the presented
bytes, the consumer and the trace stay and the byte index starts again is the model's choice (logs 16 and 6,
DESIGN CHOICE). (70_reset_and_hazards.md R250, derived) -/
def Obligations.ResetEventClearsTheBlock : Prop :=
  (∀ (s : State) (es : List HostAction), s.events = ⟨true, .rst⟩ :: es →
    step s = .next { s with
      events := es, parser := .idle, buf := [], outPending := false, outRecord := none,
      frame := [], work := Record.blank, byteIndex := 0 }) ∧
  (∀ (s : State) (es : List HostAction),
    (s.outPending = true ∧ s.outReady = false ∨ s.outPending = false ∧ s.inPort = []) →
    s.events = ⟨false, .rst⟩ :: es →
    step s = .next { s with
      events := es, parser := .idle, buf := [], outPending := false, outRecord := none,
      frame := [], work := Record.blank, byteIndex := 0 }) ∧
  (∀ (s t : State) (first : Bool) (es : List HostAction), s.events = ⟨first, .rst⟩ :: es →
    hostTurn s = .next t → delivered t = delivered s)

/-- An acceptance delivers the pending record and makes OutRecord absent. With a record r pending: when out_ready is
1 and no host action comes first, the step is the acceptance: OutPending 0, OutRecord absent, nothing else of
the block changed; an attached consumer's observation gets r, and with no consumer attached r is lost at once
(D15), whatever the host's next action is (an attach among them) but an rst that comes first, which loses it
too. That a host action may come first, and that an attached consumer with out_ready 0 accepts by an accept
action, with the same effect, is the model's choice (log 4); the observation is its trace (log 6).
(60_exceptions.md R232, 10_state.md R28, 70_reset_and_hazards.md R252, derived) -/
def Obligations.AcceptanceDeliversTheRecordOnce : Prop :=
  (∀ (s : State) (r : Record), s.hostFirst = false → s.outPending = true → s.outRecord = some r →
    s.consumer = some true →
    step s = .next { s with outPending := false, outRecord := none, trace := s.trace ++ [.record r] }) ∧
  (∀ (s : State) (r : Record), s.events.head? ≠ some ⟨true, .rst⟩ → s.outPending = true →
    s.outRecord = some r → s.consumer = none →
    step s = .next { s with outPending := false, outRecord := none }) ∧
  (∀ (s : State) (r : Record) (first : Bool) (es : List HostAction), s.outPending = true → s.outRecord = some r →
    s.consumer = some false → s.events = ⟨first, .accept⟩ :: es →
    step s = .next { s with events := es, outPending := false, outRecord := none, trace := s.trace ++ [.record r] }) ∧
  (∀ (s : State) (r : Record), delivered { s with trace := s.trace ++ [.record r] } = delivered s ++ [r])

/-- While a record is pending and not accepted, no byte is consumed. In every state with OutPending = 1 and
out_ready = 0, a step that answers a next state has lost no presented byte (more may be presented behind them)
and has consumed none: unless the host asserts rst, the parser state, the buffer and the byte index are
unchanged; and with no host event to come, the step changes nothing: the block is stuck. (40_framer.md R120,
10_state.md R29, 60_exceptions.md R232, derived) -/
def Obligations.NoByteIsConsumedWhileARecordIsPending : Prop :=
  ∀ s t : State, s.outPending = true → s.outReady = false → step s = .next t →
    (∃ chunk, t.inPort = s.inPort ++ chunk) ∧
    (s.events.head?.map HostAction.event = some .rst ∨ (t.parser = s.parser ∧ t.buf = s.buf ∧ t.byteIndex = s.byteIndex)) ∧
    (s.events = [] → t = s) ∧
    (t.outPending = true → t.outRecord = s.outRecord)

/-- Every byte transaction completes with at most one record or one label, never both. In every state with
OutPending = 0 and for every byte, the byte transaction answers a next state; either nothing is emitted and the
trace is unchanged or one label longer, or the trace is unchanged and a record is pending, and then the byte was
END in InFrameEscapeSeen with an accepted frame in the buffer, whose decoded payload is the record.
(60_exceptions.md R222, 20_memory.md R52, 40_framer.md R101, 40_framer.md R122, 70_reset_and_hazards.md R259,
derived) -/
def Obligations.ByteTransactionGivesAtMostOneRecordOrLabel : Prop :=
  ∀ (b : Byte) (s : State), s.outPending = false → ∃ t, byteTransaction b s = .next t ∧
    t.byteIndex = s.byteIndex + 1 ∧
    ((t.outPending = false ∧ t.outRecord = s.outRecord ∧
        (t.trace = s.trace ∨ ∃ d, t.trace = s.trace ++ [.label s.byteIndex d])) ∨
     (t.outPending = true ∧ t.trace = s.trace ∧ s.parser = .inFrameEscapeSeen ∧ b = 0x03#8 ∧
        accepted s.buf = true ∧ t.outRecord = some (decodePayload (payload s.buf)) ∧ t.parser = .idle ∧ t.buf = []))

/-- No input makes the block stop: only a read of a port with no value faults. In every state with the invariant: a
step never answers a refusal; it faults only when the host's turn comes (log 4) and it reads status_bit or
out_record while OutPending = 0, with the fault of that port; in every other case it answers a next state.
(60_exceptions.md R220, 93_implementation_defined.md I5, 60_exceptions.md R232, derived) -/
def Obligations.OnlyPortReadsFault : Prop :=
  ∀ s : State, BoundaryInv s →
    (∃ t, step s = .next t) ∨
    (s.outPending = false ∧ ∃ first es, (first = true ∨ s.inPort = []) ∧
      ((∃ k, s.events = ⟨first, .readStatus k⟩ :: es ∧ step s = .fault .statusBitHasNoValue) ∨
       (s.events = ⟨first, .readRecord⟩ :: es ∧ step s = .fault .outRecordHasNoValue)))

/-- The only storage write is the one-byte append at index len(buf). For every step that answers a next state: the
buffer is unchanged, or cleared, or longer by exactly one byte at index len(buf), every other index reading as
before. (R42, stated) -/
def Obligations.BufferChangesOnlyByAppendAndClear : Prop :=
  ∀ s t : State, step s = .next t →
    t.buf = s.buf ∨ t.buf = [] ∨
    ∃ b, t.buf = s.buf ++ [b] ∧ t.buf.length = s.buf.length + 1 ∧ readByte t.buf s.buf.length = some b ∧
      ∀ i, i ≠ s.buf.length → readByte t.buf i = readByte s.buf i

/-- No step changes BUF_MAX, and a consumer stays attached. For every step that answers a next state, BUF_MAX is
unchanged. The model keeps BUF_MAX as a field (log 1); and an attached consumer stays attached (the model's
choice, log 12). (10_state.md R27, 00_scope.md R8, derived) -/
def Obligations.BufferBoundIsFixedAtBuild : Prop :=
  ∀ s t : State, step s = .next t → t.bufMax = s.bufMax ∧ (s.consumer.isSome = true → t.consumer.isSome = true)

/-- The deframer never reads a buffered byte before the frame completes. Two states that differ only in the buffered
bytes, with equal lengths, do the same on every byte that does not complete a frame: both complete, with buffers
of equal length, and agree in everything else. (40_framer.md R126, derived) -/
def Obligations.DeframerReadsOnlyTheBufferLength : Prop :=
  ∀ (b : Byte) (s : State) (m : Memory), m.length = s.buf.length →
    ¬ (s.parser = .inFrameEscapeSeen ∧ b = 0x03#8 ∧ s.buf.length ≤ s.bufMax) →
    ∃ t t', byteTransaction b s = .next t ∧ byteTransaction b { s with buf := m } = .next t' ∧
      t'.buf.length = t.buf.length ∧ { t' with buf := t.buf } = t

/-- The observation trace influences nothing. Changing the model's trace changes no outcome of a step but the trace:
the discard labels are not host-visible and no rule reads them. (60_exceptions.md R221, 60_exceptions.md R229,
10_state.md R32, derived) -/
def Obligations.TraceIsNeverRead : Prop :=
  ∀ (s : State) (o : List Obs),
    (∀ t, step s = .next t → ∃ o', step { s with trace := o } = .next { t with trace := o' }) ∧
    (∀ r, step s = .fault r → step { s with trace := o } = .fault r)

/-- Feeding the wire form of a frame hands exactly that frame to the parser. For every frame f of at most BUF_MAX
bytes, from every state with no escape pending, OutPending = 0, len(buf) <= BUF_MAX and no host action that
comes first (log 4), with ESC START e(f) ESC END presented: after one step per wire byte the state is what
dispatch of exactly f gives, from Idle with an empty buffer, with the label RESTART at the START byte if a frame
was open; the byte index has moved by the length of the wire form. (40_framer.md R124, 30_encoding.md R65,
40_framer.md R123, derived) -/
def Obligations.FramingRoundTrip : Prop :=
  ∀ (f rest : List Byte) (s : State), s.hostFirst = false → s.outPending = false → escPendingFlag s.parser = false →
    s.buf.length ≤ s.bufMax → f.length ≤ s.bufMax → s.inPort = rawFrame f ++ rest →
    steps (rawFrame f).length s =
      andThen
        (dispatch f
          { s with
            parser := .idle, buf := [], inPort := rest,
            byteIndex := s.byteIndex + ((rawFrame f).length - 1),
            trace := s.trace ++ (if s.parser = .inFrame then [.label (s.byteIndex + 1) .restart] else []) })
        fun t => .next { t with frame := [], work := Record.blank, byteIndex := t.byteIndex + 1 }

/-- A frame fed while an escape is pending outside a frame is lost with no label. From EscapeSeen with an empty
buffer, OutPending = 0 and no host action that comes first (log 4), feeding the wire form of any frame ends in
Idle with nothing emitted, no label and nothing else changed: its ESC pairs with the pending one and the rest is
scanned in Idle, where no doubled ESC opens a frame. (70_reset_and_hazards.md R254, 40_framer.md R124,
70_reset_and_hazards.md R256, derived) -/
def Obligations.DanglingEscapeLosesTheNextFrame : Prop :=
  ∀ (f rest : List Byte) (s : State), s.hostFirst = false → s.parser = .escapeSeen → s.buf = [] →
    s.outPending = false → s.inPort = rawFrame f ++ rest →
    steps (rawFrame f).length s =
      .next { s with parser := .idle, inPort := rest, byteIndex := s.byteIndex + (rawFrame f).length }

/-- An oversized unterminated prefix, then a valid frame, gives exactly one decode. From InFrame with the invariant,
OutPending = 0, BUF_MAX >= 93 and no host action that comes first (log 4): feeding bytes with no ESC that exceed
the bound, then the wire form of an accepted frame f, completes with exactly one more entry in the trace,
OVERFLOW at the byte after the one that exceeded the bound, and the record decode(f[2:92]) pending, in Idle with
an empty buffer. (40_framer.md R125, 40_framer.md R102, 70_reset_and_hazards.md R256, derived) -/
def Obligations.OverflowThenFrameGivesOneDecode : Prop :=
  ∀ (junk f rest : List Byte) (s : State), BoundaryInv s → s.hostFirst = false → s.parser = .inFrame →
    s.outPending = false →
    (∀ b ∈ junk, b ≠ 0x10#8) → s.bufMax < s.buf.length + junk.length → 93 ≤ s.bufMax → accepted f = true →
    s.inPort = junk ++ rawFrame f ++ rest →
    steps (junk.length + (rawFrame f).length) s =
      .next { s with
        parser := .idle, buf := [], outPending := true, outRecord := some (decodePayload (payload f)),
        inPort := rest, byteIndex := s.byteIndex + junk.length + (rawFrame f).length,
        trace := s.trace ++ [.label (s.byteIndex + (s.bufMax + 1 - s.buf.length)) .overflow] }

/-- Feeding a stream in one chunk or split in two leads to the same state. From every state with no byte presented
and OutPending = 0, whatever the consumer does: the run that feeds a ++ b in one chunk and the run that feeds a
and then b reach, one step apart, the very same state, with both chunks fed, whether b waits for the block to
take a or comes first. The host action after the chunks must not come first, since it would cut the two streams
at different bytes (log 4). (40_framer.md R121, derived) -/
def Obligations.ChunkBoundariesHaveNoEffect : Prop :=
  ∀ (a b : List Byte) (u v : Bool) (es : List HostAction) (s : State), s.outPending = false → s.inPort = [] →
    State.hostFirst { s with events := es } = false →
    ∃ (n : Nat) (t : State),
      steps (n + 1) { s with events := ⟨u, .feed (a ++ b)⟩ :: es } = .next t ∧
      steps (n + 2) { s with events := ⟨u, .feed a⟩ :: ⟨v, .feed b⟩ :: es } = .next t ∧
      t.events = es

/-- The wire form of a frame has N + 4 bytes and one more for each ESC of the frame. For every frame, the length of
ESC START e(f) ESC END is N + 4 plus the number of ESC bytes in f. (30_encoding.md R71, 30_encoding.md R65,
derived) -/
def Obligations.WireLengthCountsDoubledEscapes : Prop :=
  ∀ f : List Byte, (rawFrame f).length = f.length + 4 + f.count 0x10#8
end

