-- ==== Sys2Proof/Laws/State.lean ====
section
/-! SUPPORT. One lemma per field per named update of the state, true by unfolding, so that no proof unfolds a record
update. -/

namespace Sys2Proof.Machine.State

variable (s : State)

@[simp] theorem append_parser (b : Byte) : (s.append b).parser = s.parser := rfl
@[simp] theorem append_buf (b : Byte) : (s.append b).buf = appendByte s.buf b := rfl
@[simp] theorem append_outPending (b : Byte) : (s.append b).outPending = s.outPending := rfl
@[simp] theorem append_outRecord (b : Byte) : (s.append b).outRecord = s.outRecord := rfl
@[simp] theorem append_frame (b : Byte) : (s.append b).frame = s.frame := rfl
@[simp] theorem append_work (b : Byte) : (s.append b).work = s.work := rfl
@[simp] theorem append_bufMax (b : Byte) : (s.append b).bufMax = s.bufMax := rfl
@[simp] theorem append_consumer (b : Byte) : (s.append b).consumer = s.consumer := rfl
@[simp] theorem append_inPort (b : Byte) : (s.append b).inPort = s.inPort := rfl
@[simp] theorem append_events (b : Byte) : (s.append b).events = s.events := rfl
@[simp] theorem append_byteIndex (b : Byte) : (s.append b).byteIndex = s.byteIndex := rfl
@[simp] theorem append_trace (b : Byte) : (s.append b).trace = s.trace := rfl

@[simp] theorem clearBuf_parser : (s.clearBuf).parser = s.parser := rfl
@[simp] theorem clearBuf_buf : (s.clearBuf).buf = [] := rfl
@[simp] theorem clearBuf_outPending : (s.clearBuf).outPending = s.outPending := rfl
@[simp] theorem clearBuf_outRecord : (s.clearBuf).outRecord = s.outRecord := rfl
@[simp] theorem clearBuf_frame : (s.clearBuf).frame = s.frame := rfl
@[simp] theorem clearBuf_work : (s.clearBuf).work = s.work := rfl
@[simp] theorem clearBuf_bufMax : (s.clearBuf).bufMax = s.bufMax := rfl
@[simp] theorem clearBuf_consumer : (s.clearBuf).consumer = s.consumer := rfl
@[simp] theorem clearBuf_inPort : (s.clearBuf).inPort = s.inPort := rfl
@[simp] theorem clearBuf_events : (s.clearBuf).events = s.events := rfl
@[simp] theorem clearBuf_byteIndex : (s.clearBuf).byteIndex = s.byteIndex := rfl
@[simp] theorem clearBuf_trace : (s.clearBuf).trace = s.trace := rfl

@[simp] theorem goto_parser (p : ParserState) : (s.goto p).parser = p := rfl
@[simp] theorem goto_buf (p : ParserState) : (s.goto p).buf = s.buf := rfl
@[simp] theorem goto_outPending (p : ParserState) : (s.goto p).outPending = s.outPending := rfl
@[simp] theorem goto_outRecord (p : ParserState) : (s.goto p).outRecord = s.outRecord := rfl
@[simp] theorem goto_frame (p : ParserState) : (s.goto p).frame = s.frame := rfl
@[simp] theorem goto_work (p : ParserState) : (s.goto p).work = s.work := rfl
@[simp] theorem goto_bufMax (p : ParserState) : (s.goto p).bufMax = s.bufMax := rfl
@[simp] theorem goto_consumer (p : ParserState) : (s.goto p).consumer = s.consumer := rfl
@[simp] theorem goto_inPort (p : ParserState) : (s.goto p).inPort = s.inPort := rfl
@[simp] theorem goto_events (p : ParserState) : (s.goto p).events = s.events := rfl
@[simp] theorem goto_byteIndex (p : ParserState) : (s.goto p).byteIndex = s.byteIndex := rfl
@[simp] theorem goto_trace (p : ParserState) : (s.goto p).trace = s.trace := rfl

@[simp] theorem hardReset_parser : (s.hardReset).parser = .idle := rfl
@[simp] theorem hardReset_buf : (s.hardReset).buf = [] := rfl
@[simp] theorem hardReset_outPending : (s.hardReset).outPending = s.outPending := rfl
@[simp] theorem hardReset_outRecord : (s.hardReset).outRecord = s.outRecord := rfl
@[simp] theorem hardReset_frame : (s.hardReset).frame = s.frame := rfl
@[simp] theorem hardReset_work : (s.hardReset).work = s.work := rfl
@[simp] theorem hardReset_bufMax : (s.hardReset).bufMax = s.bufMax := rfl
@[simp] theorem hardReset_consumer : (s.hardReset).consumer = s.consumer := rfl
@[simp] theorem hardReset_inPort : (s.hardReset).inPort = s.inPort := rfl
@[simp] theorem hardReset_events : (s.hardReset).events = s.events := rfl
@[simp] theorem hardReset_byteIndex : (s.hardReset).byteIndex = s.byteIndex := rfl
@[simp] theorem hardReset_trace : (s.hardReset).trace = s.trace := rfl

@[simp] theorem observe_parser (o : Obs) : (s.observe o).parser = s.parser := rfl
@[simp] theorem observe_buf (o : Obs) : (s.observe o).buf = s.buf := rfl
@[simp] theorem observe_outPending (o : Obs) : (s.observe o).outPending = s.outPending := rfl
@[simp] theorem observe_outRecord (o : Obs) : (s.observe o).outRecord = s.outRecord := rfl
@[simp] theorem observe_frame (o : Obs) : (s.observe o).frame = s.frame := rfl
@[simp] theorem observe_work (o : Obs) : (s.observe o).work = s.work := rfl
@[simp] theorem observe_bufMax (o : Obs) : (s.observe o).bufMax = s.bufMax := rfl
@[simp] theorem observe_consumer (o : Obs) : (s.observe o).consumer = s.consumer := rfl
@[simp] theorem observe_inPort (o : Obs) : (s.observe o).inPort = s.inPort := rfl
@[simp] theorem observe_events (o : Obs) : (s.observe o).events = s.events := rfl
@[simp] theorem observe_byteIndex (o : Obs) : (s.observe o).byteIndex = s.byteIndex := rfl
@[simp] theorem observe_trace (o : Obs) : (s.observe o).trace = s.trace ++ [o] := rfl

@[simp] theorem discard_parser (d : Discard) : (s.discard d).parser = s.parser := rfl
@[simp] theorem discard_buf (d : Discard) : (s.discard d).buf = s.buf := rfl
@[simp] theorem discard_outPending (d : Discard) : (s.discard d).outPending = s.outPending := rfl
@[simp] theorem discard_outRecord (d : Discard) : (s.discard d).outRecord = s.outRecord := rfl
@[simp] theorem discard_frame (d : Discard) : (s.discard d).frame = s.frame := rfl
@[simp] theorem discard_work (d : Discard) : (s.discard d).work = s.work := rfl
@[simp] theorem discard_bufMax (d : Discard) : (s.discard d).bufMax = s.bufMax := rfl
@[simp] theorem discard_consumer (d : Discard) : (s.discard d).consumer = s.consumer := rfl
@[simp] theorem discard_inPort (d : Discard) : (s.discard d).inPort = s.inPort := rfl
@[simp] theorem discard_events (d : Discard) : (s.discard d).events = s.events := rfl
@[simp] theorem discard_byteIndex (d : Discard) : (s.discard d).byteIndex = s.byteIndex := rfl
@[simp] theorem discard_trace (d : Discard) : (s.discard d).trace = s.trace ++ [.label s.byteIndex d] := rfl

@[simp] theorem emit_parser (r : Record) : (s.emit r).parser = s.parser := rfl
@[simp] theorem emit_buf (r : Record) : (s.emit r).buf = s.buf := rfl
@[simp] theorem emit_outPending (r : Record) : (s.emit r).outPending = true := rfl
@[simp] theorem emit_outRecord (r : Record) : (s.emit r).outRecord = some r := rfl
@[simp] theorem emit_frame (r : Record) : (s.emit r).frame = s.frame := rfl
@[simp] theorem emit_work (r : Record) : (s.emit r).work = s.work := rfl
@[simp] theorem emit_bufMax (r : Record) : (s.emit r).bufMax = s.bufMax := rfl
@[simp] theorem emit_consumer (r : Record) : (s.emit r).consumer = s.consumer := rfl
@[simp] theorem emit_inPort (r : Record) : (s.emit r).inPort = s.inPort := rfl
@[simp] theorem emit_events (r : Record) : (s.emit r).events = s.events := rfl
@[simp] theorem emit_byteIndex (r : Record) : (s.emit r).byteIndex = s.byteIndex := rfl
@[simp] theorem emit_trace (r : Record) : (s.emit r).trace = s.trace := rfl

@[simp] theorem setFrame_parser (f : List Byte) : (s.setFrame f).parser = s.parser := rfl
@[simp] theorem setFrame_buf (f : List Byte) : (s.setFrame f).buf = s.buf := rfl
@[simp] theorem setFrame_outPending (f : List Byte) : (s.setFrame f).outPending = s.outPending := rfl
@[simp] theorem setFrame_outRecord (f : List Byte) : (s.setFrame f).outRecord = s.outRecord := rfl
@[simp] theorem setFrame_frame (f : List Byte) : (s.setFrame f).frame = f := rfl
@[simp] theorem setFrame_work (f : List Byte) : (s.setFrame f).work = s.work := rfl
@[simp] theorem setFrame_bufMax (f : List Byte) : (s.setFrame f).bufMax = s.bufMax := rfl
@[simp] theorem setFrame_consumer (f : List Byte) : (s.setFrame f).consumer = s.consumer := rfl
@[simp] theorem setFrame_inPort (f : List Byte) : (s.setFrame f).inPort = s.inPort := rfl
@[simp] theorem setFrame_events (f : List Byte) : (s.setFrame f).events = s.events := rfl
@[simp] theorem setFrame_byteIndex (f : List Byte) : (s.setFrame f).byteIndex = s.byteIndex := rfl
@[simp] theorem setFrame_trace (f : List Byte) : (s.setFrame f).trace = s.trace := rfl

@[simp] theorem setWork_parser (r : Record) : (s.setWork r).parser = s.parser := rfl
@[simp] theorem setWork_buf (r : Record) : (s.setWork r).buf = s.buf := rfl
@[simp] theorem setWork_outPending (r : Record) : (s.setWork r).outPending = s.outPending := rfl
@[simp] theorem setWork_outRecord (r : Record) : (s.setWork r).outRecord = s.outRecord := rfl
@[simp] theorem setWork_frame (r : Record) : (s.setWork r).frame = s.frame := rfl
@[simp] theorem setWork_work (r : Record) : (s.setWork r).work = r := rfl
@[simp] theorem setWork_bufMax (r : Record) : (s.setWork r).bufMax = s.bufMax := rfl
@[simp] theorem setWork_consumer (r : Record) : (s.setWork r).consumer = s.consumer := rfl
@[simp] theorem setWork_inPort (r : Record) : (s.setWork r).inPort = s.inPort := rfl
@[simp] theorem setWork_events (r : Record) : (s.setWork r).events = s.events := rfl
@[simp] theorem setWork_byteIndex (r : Record) : (s.setWork r).byteIndex = s.byteIndex := rfl
@[simp] theorem setWork_trace (r : Record) : (s.setWork r).trace = s.trace := rfl

@[simp] theorem endDispatch_parser : (s.endDispatch).parser = s.parser := rfl
@[simp] theorem endDispatch_buf : (s.endDispatch).buf = s.buf := rfl
@[simp] theorem endDispatch_outPending : (s.endDispatch).outPending = s.outPending := rfl
@[simp] theorem endDispatch_outRecord : (s.endDispatch).outRecord = s.outRecord := rfl
@[simp] theorem endDispatch_frame : (s.endDispatch).frame = [] := rfl
@[simp] theorem endDispatch_work : (s.endDispatch).work = Record.blank := rfl
@[simp] theorem endDispatch_bufMax : (s.endDispatch).bufMax = s.bufMax := rfl
@[simp] theorem endDispatch_consumer : (s.endDispatch).consumer = s.consumer := rfl
@[simp] theorem endDispatch_inPort : (s.endDispatch).inPort = s.inPort := rfl
@[simp] theorem endDispatch_events : (s.endDispatch).events = s.events := rfl
@[simp] theorem endDispatch_byteIndex : (s.endDispatch).byteIndex = s.byteIndex := rfl
@[simp] theorem endDispatch_trace : (s.endDispatch).trace = s.trace := rfl

@[simp] theorem accept_parser : (s.accept).parser = s.parser := rfl
@[simp] theorem accept_buf : (s.accept).buf = s.buf := rfl
@[simp] theorem accept_outPending : (s.accept).outPending = false := rfl
@[simp] theorem accept_outRecord : (s.accept).outRecord = none := rfl
@[simp] theorem accept_frame : (s.accept).frame = s.frame := rfl
@[simp] theorem accept_work : (s.accept).work = s.work := rfl
@[simp] theorem accept_bufMax : (s.accept).bufMax = s.bufMax := rfl
@[simp] theorem accept_consumer : (s.accept).consumer = s.consumer := rfl
@[simp] theorem accept_inPort : (s.accept).inPort = s.inPort := rfl
@[simp] theorem accept_events : (s.accept).events = s.events := rfl
@[simp] theorem accept_byteIndex : (s.accept).byteIndex = s.byteIndex := rfl

@[simp] theorem applyReset_parser : (s.applyReset).parser = .idle := rfl
@[simp] theorem applyReset_buf : (s.applyReset).buf = [] := rfl
@[simp] theorem applyReset_outPending : (s.applyReset).outPending = false := rfl
@[simp] theorem applyReset_outRecord : (s.applyReset).outRecord = none := rfl
@[simp] theorem applyReset_frame : (s.applyReset).frame = [] := rfl
@[simp] theorem applyReset_work : (s.applyReset).work = Record.blank := rfl
@[simp] theorem applyReset_bufMax : (s.applyReset).bufMax = s.bufMax := rfl
@[simp] theorem applyReset_consumer : (s.applyReset).consumer = s.consumer := rfl
@[simp] theorem applyReset_inPort : (s.applyReset).inPort = s.inPort := rfl
@[simp] theorem applyReset_events : (s.applyReset).events = s.events := rfl
@[simp] theorem applyReset_byteIndex : (s.applyReset).byteIndex = 0 := rfl
@[simp] theorem applyReset_trace : (s.applyReset).trace = s.trace := rfl

@[simp] theorem present_parser (c : List Byte) : (s.present c).parser = s.parser := rfl
@[simp] theorem present_buf (c : List Byte) : (s.present c).buf = s.buf := rfl
@[simp] theorem present_outPending (c : List Byte) : (s.present c).outPending = s.outPending := rfl
@[simp] theorem present_outRecord (c : List Byte) : (s.present c).outRecord = s.outRecord := rfl
@[simp] theorem present_frame (c : List Byte) : (s.present c).frame = s.frame := rfl
@[simp] theorem present_work (c : List Byte) : (s.present c).work = s.work := rfl
@[simp] theorem present_bufMax (c : List Byte) : (s.present c).bufMax = s.bufMax := rfl
@[simp] theorem present_consumer (c : List Byte) : (s.present c).consumer = s.consumer := rfl
@[simp] theorem present_inPort (c : List Byte) : (s.present c).inPort = s.inPort ++ c := rfl
@[simp] theorem present_events (c : List Byte) : (s.present c).events = s.events := rfl
@[simp] theorem present_byteIndex (c : List Byte) : (s.present c).byteIndex = s.byteIndex := rfl
@[simp] theorem present_trace (c : List Byte) : (s.present c).trace = s.trace := rfl

@[simp] theorem setInPort_parser (c : List Byte) : (s.setInPort c).parser = s.parser := rfl
@[simp] theorem setInPort_buf (c : List Byte) : (s.setInPort c).buf = s.buf := rfl
@[simp] theorem setInPort_outPending (c : List Byte) : (s.setInPort c).outPending = s.outPending := rfl
@[simp] theorem setInPort_outRecord (c : List Byte) : (s.setInPort c).outRecord = s.outRecord := rfl
@[simp] theorem setInPort_frame (c : List Byte) : (s.setInPort c).frame = s.frame := rfl
@[simp] theorem setInPort_work (c : List Byte) : (s.setInPort c).work = s.work := rfl
@[simp] theorem setInPort_bufMax (c : List Byte) : (s.setInPort c).bufMax = s.bufMax := rfl
@[simp] theorem setInPort_consumer (c : List Byte) : (s.setInPort c).consumer = s.consumer := rfl
@[simp] theorem setInPort_inPort (c : List Byte) : (s.setInPort c).inPort = c := rfl
@[simp] theorem setInPort_events (c : List Byte) : (s.setInPort c).events = s.events := rfl
@[simp] theorem setInPort_byteIndex (c : List Byte) : (s.setInPort c).byteIndex = s.byteIndex := rfl
@[simp] theorem setInPort_trace (c : List Byte) : (s.setInPort c).trace = s.trace := rfl

@[simp] theorem setEvents_parser (es : List HostAction) : (s.setEvents es).parser = s.parser := rfl
@[simp] theorem setEvents_buf (es : List HostAction) : (s.setEvents es).buf = s.buf := rfl
@[simp] theorem setEvents_outPending (es : List HostAction) : (s.setEvents es).outPending = s.outPending := rfl
@[simp] theorem setEvents_outRecord (es : List HostAction) : (s.setEvents es).outRecord = s.outRecord := rfl
@[simp] theorem setEvents_frame (es : List HostAction) : (s.setEvents es).frame = s.frame := rfl
@[simp] theorem setEvents_work (es : List HostAction) : (s.setEvents es).work = s.work := rfl
@[simp] theorem setEvents_bufMax (es : List HostAction) : (s.setEvents es).bufMax = s.bufMax := rfl
@[simp] theorem setEvents_consumer (es : List HostAction) : (s.setEvents es).consumer = s.consumer := rfl
@[simp] theorem setEvents_inPort (es : List HostAction) : (s.setEvents es).inPort = s.inPort := rfl
@[simp] theorem setEvents_events (es : List HostAction) : (s.setEvents es).events = es := rfl
@[simp] theorem setEvents_byteIndex (es : List HostAction) : (s.setEvents es).byteIndex = s.byteIndex := rfl
@[simp] theorem setEvents_trace (es : List HostAction) : (s.setEvents es).trace = s.trace := rfl

@[simp] theorem yieldHost_parser : (s.yieldHost).parser = s.parser := rfl
@[simp] theorem yieldHost_buf : (s.yieldHost).buf = s.buf := rfl
@[simp] theorem yieldHost_outPending : (s.yieldHost).outPending = s.outPending := rfl
@[simp] theorem yieldHost_outRecord : (s.yieldHost).outRecord = s.outRecord := rfl
@[simp] theorem yieldHost_frame : (s.yieldHost).frame = s.frame := rfl
@[simp] theorem yieldHost_work : (s.yieldHost).work = s.work := rfl
@[simp] theorem yieldHost_bufMax : (s.yieldHost).bufMax = s.bufMax := rfl
@[simp] theorem yieldHost_consumer : (s.yieldHost).consumer = s.consumer := rfl
@[simp] theorem yieldHost_inPort : (s.yieldHost).inPort = s.inPort := rfl
@[simp] theorem yieldHost_byteIndex : (s.yieldHost).byteIndex = s.byteIndex := rfl
@[simp] theorem yieldHost_trace : (s.yieldHost).trace = s.trace := rfl

@[simp] theorem setConsumer_parser (c : Option Bool) : (s.setConsumer c).parser = s.parser := rfl
@[simp] theorem setConsumer_buf (c : Option Bool) : (s.setConsumer c).buf = s.buf := rfl
@[simp] theorem setConsumer_outPending (c : Option Bool) : (s.setConsumer c).outPending = s.outPending := rfl
@[simp] theorem setConsumer_outRecord (c : Option Bool) : (s.setConsumer c).outRecord = s.outRecord := rfl
@[simp] theorem setConsumer_frame (c : Option Bool) : (s.setConsumer c).frame = s.frame := rfl
@[simp] theorem setConsumer_work (c : Option Bool) : (s.setConsumer c).work = s.work := rfl
@[simp] theorem setConsumer_bufMax (c : Option Bool) : (s.setConsumer c).bufMax = s.bufMax := rfl
@[simp] theorem setConsumer_consumer (c : Option Bool) : (s.setConsumer c).consumer = c := rfl
@[simp] theorem setConsumer_inPort (c : Option Bool) : (s.setConsumer c).inPort = s.inPort := rfl
@[simp] theorem setConsumer_events (c : Option Bool) : (s.setConsumer c).events = s.events := rfl
@[simp] theorem setConsumer_byteIndex (c : Option Bool) : (s.setConsumer c).byteIndex = s.byteIndex := rfl
@[simp] theorem setConsumer_trace (c : Option Bool) : (s.setConsumer c).trace = s.trace := rfl

@[simp] theorem nextByte_parser : (s.nextByte).parser = s.parser := rfl
@[simp] theorem nextByte_buf : (s.nextByte).buf = s.buf := rfl
@[simp] theorem nextByte_outPending : (s.nextByte).outPending = s.outPending := rfl
@[simp] theorem nextByte_outRecord : (s.nextByte).outRecord = s.outRecord := rfl
@[simp] theorem nextByte_frame : (s.nextByte).frame = s.frame := rfl
@[simp] theorem nextByte_work : (s.nextByte).work = s.work := rfl
@[simp] theorem nextByte_bufMax : (s.nextByte).bufMax = s.bufMax := rfl
@[simp] theorem nextByte_consumer : (s.nextByte).consumer = s.consumer := rfl
@[simp] theorem nextByte_inPort : (s.nextByte).inPort = s.inPort := rfl
@[simp] theorem nextByte_events : (s.nextByte).events = s.events := rfl
@[simp] theorem nextByte_byteIndex : (s.nextByte).byteIndex = s.byteIndex + 1 := rfl
@[simp] theorem nextByte_trace : (s.nextByte).trace = s.trace := rfl

/-- An attached consumer takes the pending record into the observation (R232, R260). -/
@[simp] theorem accept_trace_of_attached {level : Bool} {r : Record} (hc : s.consumer = some level)
    (hr : s.outRecord = some r) : s.accept.trace = s.trace ++ [.record r] := by
  simp [State.accept, hc, hr]

/-- With no consumer attached nothing is observed (D15). -/
@[simp] theorem accept_trace_of_detached (hc : s.consumer = none) : s.accept.trace = s.trace := by
  simp [State.accept, hc]

@[simp] theorem inReady_eq : s.inReady = !s.outPending := rfl
@[simp] theorem outValid_eq : s.outValid = s.outPending := rfl

end Sys2Proof.Machine.State
end

