-- ==== Sys2Proof/Laws/Ops.lean ====
section
/-! SUPPORT. One lemma, or a few, per shared operation: what it can do, said once. -/

namespace Sys2Proof.Machine

@[simp] theorem andThen_next (s : State) (k : State → Host.Outcome State Fault Refusal) :
    andThen (.next s) k = k s := rfl

@[simp] theorem andThen_fault (r : Fault) (k : State → Host.Outcome State Fault Refusal) :
    andThen (.fault r) k = .fault r := rfl

@[simp] theorem andThen_refused (r : Refusal) (k : State → Host.Outcome State Fault Refusal) :
    andThen (.refused r) k = .refused r := rfl

/-- A sequence answers a next state only through a next state of its first part. -/
theorem andThen_eq_next {o : Host.Outcome State Fault Refusal} {k : State → Host.Outcome State Fault Refusal}
    {t : State} (h : andThen o k = .next t) : ∃ s, o = .next s ∧ k s = .next t := by
  cases o with
  | next s => exact ⟨s, rfl, h⟩
  | fault r => cases h
  | refused r => cases h

/-- The append adds one byte (R42). -/
@[simp] theorem appendByte_length (m : Memory) (b : Byte) : (appendByte m b).length = m.length + 1 := by
  simp [appendByte]

/-- Reading the byte the append wrote (R42). -/
@[simp] theorem readByte_appendByte_length (m : Memory) (b : Byte) : readByte (appendByte m b) m.length = some b := by
  simp [readByte, appendByte]

/-- The append leaves every other index alone (R42). -/
theorem readByte_appendByte_of_ne (m : Memory) (b : Byte) {i : Nat} (h : i ≠ m.length) :
    readByte (appendByte m b) i = readByte m i := by
  rcases Nat.lt_or_gt_of_ne h with hlt | hgt
  · simp [readByte, appendByte, List.getElem?_append_left hlt]
  · have h1 : (m ++ [b]).length ≤ i := by simpa using hgt
    simp [readByte, appendByte, List.getElem?_eq_none h1, List.getElem?_eq_none (Nat.le_of_lt hgt)]

/-- Every memory operation keeps the bound of the buffer (R25): the append below the bound of the pre-check. -/
theorem wf_appendByte {n : Nat} {m : Memory} (b : Byte) (h : m.length ≤ n) :
    Memory.wf n (appendByte m b) = true := by
  simp [Memory.wf, h]

/-- The clear keeps the bound. -/
@[simp] theorem wf_nil (n : Nat) : Memory.wf n [] = true := by simp [Memory.wf]

/-- The buffer after reset has the bound. -/
theorem wf_reset : Memory.wf State.reset.bufMax State.reset.buf = true := wf_nil _

/-- `le` of `n` bytes is below `256^n` (R197). -/
theorem le_lt (l : List Byte) : le l < 256 ^ l.length := by
  induction l with
  | nil => simp [le]
  | cons b bs ih =>
    have hb : b.toNat < 256 := b.isLt
    simp only [le, List.length_cons, Nat.pow_succ]
    omega

theorem memRead_length_le (p : List Byte) (o n : Nat) : (memRead p o n).length ≤ n := by
  simp [memRead]

theorem memRead_length {p : List Byte} {o n : Nat} (h : o + n ≤ p.length) : (memRead p o n).length = n := by
  simp [memRead]; omega

@[simp] theorem ofCode_code (p : ParserState) : ParserState.ofCode p.code = p := by cases p <;> rfl

/-- The byte and the state of a step word read back (R63). -/
@[simp] theorem stepWord_byte (p : ParserState) (b : Byte) : (stepWord p b).extractLsb' 0 8 = b := by
  ext i hi
  rw [BitVec.getElem_extractLsb', stepWord]
  exact BitVec.getLsbD_append.trans (by simp [hi])

@[simp] theorem stepWord_state (p : ParserState) (b : Byte) : (stepWord p b).extractLsb' 8 2 = p.code := by
  ext i hi
  rw [BitVec.getElem_extractLsb', stepWord]
  exact BitVec.getLsbD_append.trans (by simp [BitVec.getLsbD_eq_getElem hi])

/-- The later record under decode stands. -/
@[simp] theorem setWork_setWork (s : State) (a b : Record) : (s.setWork a).setWork b = s.setWork b := rfl

/-- The whole decode of a payload, for the frame in hand, is the record `decode(p)` (R195). -/
theorem decodeFields_eq (s : State) :
    decodeFields s = .next (s.setWork (decodePayload (payload s.frame))) := by
  simp only [decodeFields, decodePayload, andThen_next, State.setWork_work, setWork_setWork,
    execNavTimeOfValidity, execNavLatitudeDegrees, execNavLongitudeDegrees, execNavDepthMetres,
    execNavAltitudeMetres, execNavRollDegrees, execNavPitchDegrees, execNavHeadingDegrees,
    execNavVelocityNorth, execNavVelocityEast, execNavVelocityDown, execNavAngularRateFwd,
    execNavAngularRateStarboard, execNavAngularRateDown, execNavAccelerationFwd,
    execNavAccelerationStarboard, execNavAccelerationDown, execNavErrorEstimate0, execNavErrorEstimate1,
    execNavErrorEstimate2, execNavErrorEstimate3, execNavErrorEstimate4, execNavErrorEstimate5,
    execNavErrorEstimate6, execNavErrorEstimate7, execNavErrorEstimate8, execNavErrorEstimate9,
    execNavErrorEstimate10, execNavStatusFlags]

/-- NAV.ACCEPT on a frame of 93 bytes emits (R146). -/
theorem execNavAccept_of_length {x : BitVec 6} {s : State}
    (h : s.frame.length - Config.frameOverhead = Config.navPayloadLen) :
    execNavAccept x s =
      .next ((s.setWork (decodePayload (payload s.frame))).emit (decodePayload (payload s.frame))) := by
  simp [execNavAccept, h, decodeFields_eq]

/-- What `dispatch` can do (R140): one label, or one record of a frame of 93 bytes. -/
theorem dispatch_cases (f : List Byte) (s : State) :
    (∃ d, dispatch f s = .next (s.discard d)) ∨
    (∃ d, dispatch f s = .next ((s.setFrame f).discard d)) ∨
    (xorAll f = 0#8 ∧ isNavHeader (headerWord f) = true ∧
      f.length - Config.frameOverhead = Config.navPayloadLen ∧
      dispatch f s =
        .next (((s.setFrame f).setWork (decodePayload (payload f))).emit (decodePayload (payload f)))) := by
  unfold dispatch
  split
  · exact .inl ⟨_, rfl⟩
  · split
    · exact .inl ⟨_, rfl⟩
    · rename_i hx _
      split
      · rename_i hn
        by_cases hl : f.length - Config.frameOverhead = Config.navPayloadLen
        · exact .inr (.inr ⟨by simpa using hx, hn, hl, execNavAccept_of_length (s := s.setFrame f) hl⟩)
        · exact .inr (.inl ⟨.length, by simp [execNavAccept, hl]⟩)
      · exact .inr (.inl ⟨.ident, rfl⟩)

/-- What the host's turn can be: nothing, or its next action. -/
theorem hostTurn_cases (s : State) :
    (s.events = [] ∧ hostTurn s = .next s) ∨
    ∃ a es, s.events = a :: es ∧ hostTurn s = hostEvent a.event (s.setEvents es) := by
  unfold hostTurn
  cases he : s.events <;> simp

@[simp] theorem hostFirst_of_nil {s : State} (h : s.events = []) : s.hostFirst = false := by simp [State.hostFirst, h]

/-- Whether the next action comes first, by its own word but for a record accepted at once (log 4, D15). -/
theorem hostFirst_of_cons {s : State} {a : HostAction} {es : List HostAction} (h : s.events = a :: es) :
    s.hostFirst = (a.first && (!s.acceptsAtOnce || a.event == .rst)) := by simp [State.hostFirst, h]

@[simp] theorem acceptsAtOnce_eq (s : State) : s.acceptsAtOnce = (s.outPending && s.consumer.isNone) := rfl

/-- A `rst` that comes first does so in every state (R250). -/
theorem hostFirst_of_rst {s : State} {es : List HostAction} (h : s.events = ⟨true, .rst⟩ :: es) :
    s.hostFirst = true := by simp [hostFirst_of_cons h]

/-- After `yieldHost` no host action comes first. -/
@[simp] theorem yieldHost_hostFirst (s : State) : s.yieldHost.hostFirst = false := by
  cases h : s.events <;> simp [State.hostFirst, State.yieldHost, h]

/-- What one event can be: the host's turn where its action comes first; else an acceptance, a byte transaction, or the
host's turn. -/
theorem cycle_cases (s : State) :
    (s.hostFirst = true ∧ cycle s = hostTurn s) ∨
    (s.hostFirst = false ∧ s.outPending = true ∧ s.outReady = true ∧ cycle s = .next s.accept) ∨
    (s.hostFirst = false ∧ s.outPending = false ∧
      ∃ b rest, s.inPort = b :: rest ∧ cycle s = byteTransaction b (s.setInPort rest)) ∨
    (s.hostFirst = false ∧ (s.outPending = true ∧ s.outReady = false ∨ s.outPending = false ∧ s.inPort = []) ∧
      cycle s = hostTurn s) := by
  unfold cycle offered
  cases hh : s.hostFirst <;> cases hp : s.outPending <;> cases hr : s.outReady <;> cases hi : s.inPort <;> simp [hp]

end Sys2Proof.Machine
end

