-- ==== Sys2Proof/Laws/PerInstr.lean ====
section
/-! SUPPORT. Facts about every instruction as syntax, one lemma per constructor of `Instr`. -/

namespace Sys2Proof.Laws

/-- The encoder writes as many bytes as the instruction's site has. -/
def EncodeWidth.Statement (i : Instr) : Prop := (encode i).length = i.site.width

theorem EncodeWidth.precheckOverflow : EncodeWidth.Statement (.precheckOverflow) := rfl
theorem EncodeWidth.idleEsc : EncodeWidth.Statement (.idleEsc) := rfl
theorem EncodeWidth.idleStart : EncodeWidth.Statement (.idleStart) := rfl
theorem EncodeWidth.idleEnd : EncodeWidth.Statement (.idleEnd) := rfl
theorem EncodeWidth.idleOther (b : Byte) : EncodeWidth.Statement (.idleOther b) := rfl
theorem EncodeWidth.escseenEsc : EncodeWidth.Statement (.escseenEsc) := rfl
theorem EncodeWidth.escseenStart : EncodeWidth.Statement (.escseenStart) := rfl
theorem EncodeWidth.escseenEnd : EncodeWidth.Statement (.escseenEnd) := rfl
theorem EncodeWidth.escseenOther (b : Byte) : EncodeWidth.Statement (.escseenOther b) := rfl
theorem EncodeWidth.inframeEsc : EncodeWidth.Statement (.inframeEsc) := rfl
theorem EncodeWidth.inframeStart : EncodeWidth.Statement (.inframeStart) := rfl
theorem EncodeWidth.inframeEnd : EncodeWidth.Statement (.inframeEnd) := rfl
theorem EncodeWidth.inframeOther (b : Byte) : EncodeWidth.Statement (.inframeOther b) := rfl
theorem EncodeWidth.inframeescEsc : EncodeWidth.Statement (.inframeescEsc) := rfl
theorem EncodeWidth.inframeescStart : EncodeWidth.Statement (.inframeescStart) := rfl
theorem EncodeWidth.inframeescEnd : EncodeWidth.Statement (.inframeescEnd) := rfl
theorem EncodeWidth.inframeescOther (b : Byte) : EncodeWidth.Statement (.inframeescOther b) := rfl
theorem EncodeWidth.navAccept (x : BitVec 6) : EncodeWidth.Statement (.navAccept x) := rfl
theorem EncodeWidth.hdrOther (h : BitVec 16) : EncodeWidth.Statement (.hdrOther h) := rfl
theorem EncodeWidth.navTimeOfValidity (v : BitVec 48) : EncodeWidth.Statement (.navTimeOfValidity v) := rfl
theorem EncodeWidth.navLatitudeDegrees (v : BitVec 32) : EncodeWidth.Statement (.navLatitudeDegrees v) := rfl
theorem EncodeWidth.navLongitudeDegrees (v : BitVec 32) : EncodeWidth.Statement (.navLongitudeDegrees v) := rfl
theorem EncodeWidth.navDepthMetres (v : BitVec 32) : EncodeWidth.Statement (.navDepthMetres v) := rfl
theorem EncodeWidth.navAltitudeMetres (v : BitVec 16) : EncodeWidth.Statement (.navAltitudeMetres v) := rfl
theorem EncodeWidth.navRollDegrees (v : BitVec 16) : EncodeWidth.Statement (.navRollDegrees v) := rfl
theorem EncodeWidth.navPitchDegrees (v : BitVec 16) : EncodeWidth.Statement (.navPitchDegrees v) := rfl
theorem EncodeWidth.navHeadingDegrees (v : BitVec 16) : EncodeWidth.Statement (.navHeadingDegrees v) := rfl
theorem EncodeWidth.navVelocityNorth (v : BitVec 16) : EncodeWidth.Statement (.navVelocityNorth v) := rfl
theorem EncodeWidth.navVelocityEast (v : BitVec 16) : EncodeWidth.Statement (.navVelocityEast v) := rfl
theorem EncodeWidth.navVelocityDown (v : BitVec 16) : EncodeWidth.Statement (.navVelocityDown v) := rfl
theorem EncodeWidth.navAngularRateFwd (v : BitVec 16) : EncodeWidth.Statement (.navAngularRateFwd v) := rfl
theorem EncodeWidth.navAngularRateStarboard (v : BitVec 16) : EncodeWidth.Statement (.navAngularRateStarboard v) := rfl
theorem EncodeWidth.navAngularRateDown (v : BitVec 16) : EncodeWidth.Statement (.navAngularRateDown v) := rfl
theorem EncodeWidth.navAccelerationFwd (v : BitVec 16) : EncodeWidth.Statement (.navAccelerationFwd v) := rfl
theorem EncodeWidth.navAccelerationStarboard (v : BitVec 16) : EncodeWidth.Statement (.navAccelerationStarboard v) := rfl
theorem EncodeWidth.navAccelerationDown (v : BitVec 16) : EncodeWidth.Statement (.navAccelerationDown v) := rfl
theorem EncodeWidth.navErrorEstimate0 (v : BitVec 32) : EncodeWidth.Statement (.navErrorEstimate0 v) := rfl
theorem EncodeWidth.navErrorEstimate1 (v : BitVec 32) : EncodeWidth.Statement (.navErrorEstimate1 v) := rfl
theorem EncodeWidth.navErrorEstimate2 (v : BitVec 32) : EncodeWidth.Statement (.navErrorEstimate2 v) := rfl
theorem EncodeWidth.navErrorEstimate3 (v : BitVec 32) : EncodeWidth.Statement (.navErrorEstimate3 v) := rfl
theorem EncodeWidth.navErrorEstimate4 (v : BitVec 32) : EncodeWidth.Statement (.navErrorEstimate4 v) := rfl
theorem EncodeWidth.navErrorEstimate5 (v : BitVec 32) : EncodeWidth.Statement (.navErrorEstimate5 v) := rfl
theorem EncodeWidth.navErrorEstimate6 (v : BitVec 32) : EncodeWidth.Statement (.navErrorEstimate6 v) := rfl
theorem EncodeWidth.navErrorEstimate7 (v : BitVec 32) : EncodeWidth.Statement (.navErrorEstimate7 v) := rfl
theorem EncodeWidth.navErrorEstimate8 (v : BitVec 32) : EncodeWidth.Statement (.navErrorEstimate8 v) := rfl
theorem EncodeWidth.navErrorEstimate9 (v : BitVec 32) : EncodeWidth.Statement (.navErrorEstimate9 v) := rfl
theorem EncodeWidth.navErrorEstimate10 (v : BitVec 32) : EncodeWidth.Statement (.navErrorEstimate10 v) := rfl
theorem EncodeWidth.navStatusFlags (v : BitVec 16) : EncodeWidth.Statement (.navStatusFlags v) := rfl
theorem EncodeWidth.isset (k : BitVec 4) : EncodeWidth.Statement (.isset k) := rfl

end Sys2Proof.Laws
end

