-- ==== Sys2Proof/Tests/Slice0.lean ====
section
/-! SUPPORT. Small tests. Expected values are the vectors of spec/95_test_vectors.md and the examples of the rules (V-T
the framer's transition vectors, V-D the parser's, V1 and V2 the field tables, V-S the accessor's), never the model's
own answers. Then one witness per statement that has hypotheses. -/

namespace Sys2Proof.Tests

open Sys2Proof.Machine

/-- The payload `P1` of the worked example (V1). -/
def p1 : List Byte :=
  [0xE9#8, 0x22#8, 0x64#8, 0x39#8, 0x00#8, 0x00#8, 0x11#8, 0x11#8, 0x11#8, 0x11#8, 0xB0#8, 0x05#8] ++
  [0x5B#8, 0x10#8, 0xD0#8, 0x84#8, 0x00#8, 0x00#8, 0xE8#8, 0x03#8, 0xAA#8, 0x0A#8, 0xC7#8, 0x11#8] ++
  [0xE3#8, 0x18#8, 0xD0#8, 0x07#8, 0xB8#8, 0x0B#8, 0xA0#8, 0x0F#8, 0xF4#8, 0x01#8, 0x58#8, 0x02#8] ++
  [0xBC#8, 0x02#8, 0x40#8, 0x1F#8, 0x28#8, 0x23#8, 0x10#8, 0x27#8, 0x00#8, 0x00#8, 0x30#8, 0x41#8] ++
  [0x00#8, 0x00#8, 0x40#8, 0x41#8, 0x00#8, 0x00#8, 0x50#8, 0x41#8, 0x00#8, 0x00#8, 0x60#8, 0x41#8] ++
  [0x00#8, 0x00#8, 0x70#8, 0x41#8, 0x00#8, 0x00#8, 0x80#8, 0x41#8, 0x00#8, 0x00#8, 0x88#8, 0x41#8] ++
  [0x00#8, 0x00#8, 0x90#8, 0x41#8, 0x00#8, 0x00#8, 0x98#8, 0x41#8, 0x00#8, 0x00#8, 0xA0#8, 0x41#8] ++
  [0x00#8, 0x00#8, 0xA8#8, 0x41#8, 0x00#8, 0x00#8]

/-- The 99 wire bytes of the worked example (V1). -/
def wire1 : List Byte :=
  [0x10#8, 0x02#8, 0x00#8, 0xE0#8, 0xE9#8, 0x22#8, 0x64#8, 0x39#8, 0x00#8, 0x00#8, 0x11#8, 0x11#8] ++
  [0x11#8, 0x11#8, 0xB0#8, 0x05#8, 0x5B#8, 0x10#8, 0x10#8, 0xD0#8, 0x84#8, 0x00#8, 0x00#8, 0xE8#8] ++
  [0x03#8, 0xAA#8, 0x0A#8, 0xC7#8, 0x11#8, 0xE3#8, 0x18#8, 0xD0#8, 0x07#8, 0xB8#8, 0x0B#8, 0xA0#8] ++
  [0x0F#8, 0xF4#8, 0x01#8, 0x58#8, 0x02#8, 0xBC#8, 0x02#8, 0x40#8, 0x1F#8, 0x28#8, 0x23#8, 0x10#8] ++
  [0x10#8, 0x27#8, 0x00#8, 0x00#8, 0x30#8, 0x41#8, 0x00#8, 0x00#8, 0x40#8, 0x41#8, 0x00#8, 0x00#8] ++
  [0x50#8, 0x41#8, 0x00#8, 0x00#8, 0x60#8, 0x41#8, 0x00#8, 0x00#8, 0x70#8, 0x41#8, 0x00#8, 0x00#8] ++
  [0x80#8, 0x41#8, 0x00#8, 0x00#8, 0x88#8, 0x41#8, 0x00#8, 0x00#8, 0x90#8, 0x41#8, 0x00#8, 0x00#8] ++
  [0x98#8, 0x41#8, 0x00#8, 0x00#8, 0xA0#8, 0x41#8, 0x00#8, 0x00#8, 0xA8#8, 0x41#8, 0x00#8, 0x00#8] ++
  [0x7A#8, 0x10#8, 0x03#8]

/-- The corner payload `Q2` (V2). -/
def q2 : List Byte :=
  [0xFF#8, 0xFF#8, 0xFF#8, 0xFF#8, 0xFF#8, 0xFF#8, 0x00#8, 0x00#8, 0x00#8, 0x80#8, 0xFF#8, 0xFF#8] ++
  [0xFF#8, 0x7F#8, 0xFF#8, 0xFF#8, 0xFF#8, 0xFF#8, 0xFF#8, 0xFF#8, 0x00#8, 0x80#8, 0xFF#8, 0x7F#8] ++
  [0x00#8, 0x80#8, 0x00#8, 0x80#8, 0xFF#8, 0x7F#8, 0x00#8, 0x00#8, 0xFF#8, 0xFF#8, 0x01#8, 0x00#8] ++
  [0x10#8, 0x00#8, 0x02#8, 0x00#8, 0x03#8, 0x00#8, 0x10#8, 0x10#8, 0x00#8, 0x00#8, 0xC0#8, 0x7F#8] ++
  [0x01#8, 0x00#8, 0x80#8, 0x7F#8, 0x00#8, 0x00#8, 0x80#8, 0x7F#8, 0x00#8, 0x00#8, 0x80#8, 0xFF#8] ++
  [0x00#8, 0x00#8, 0x00#8, 0x80#8, 0x01#8, 0x00#8, 0x00#8, 0x00#8, 0xFF#8, 0xFF#8, 0x7F#8, 0x7F#8] ++
  [0x00#8, 0x00#8, 0x80#8, 0x3F#8, 0x00#8, 0x00#8, 0x80#8, 0xBF#8, 0x00#8, 0x00#8, 0x80#8, 0x00#8] ++
  [0x00#8, 0x00#8, 0x00#8, 0x00#8, 0x01#8, 0x80#8]

/-- The frame of the worked example: header 00 E0, `P1`, checksum 7A (V1). -/
def f1 : List Byte := [0x00#8, 0xE0#8] ++ p1 ++ [0x7A#8]

/-- A small state: parser state and buffer, the bound 4. -/
def stateAt (p : ParserState) (m : Memory) : State := { State.reset with parser := p, buf := m, bufMax := 4 }

/-- A state about to take a byte. -/
def feeding (p : ParserState) (m : Memory) (b : Byte) : State := { stateAt p m with inPort := [b] }

/-- A state with a record pending and a consumer that holds out_ready low. -/
def pendingState (r : Record) : State :=
  { State.reset with outPending := true, outRecord := some r, consumer := some false }

/-- A state with a record pending that an attached consumer takes now. -/
def acceptable : State := (pendingState Record.blank).setConsumer (some true)

/-- What the block and the trace show after an outcome. -/
def view (o : Host.Outcome State Fault Refusal) : Option (ParserState × Memory × Bool × List Obs) :=
  match o with
  | .next s => some (s.parser, s.buf, s.outPending, s.trace)
  | _ => none

/-- The fault of an outcome. -/
def faultOf (o : Host.Outcome State Fault Refusal) : Option Fault :=
  match o with
  | .fault r => some r
  | _ => none

/-! ## Well-formedness: each check refuses an ill-formed term -/

theorem test_other_rows_refuse_markers :
    (Instr.idleOther 0x10#8).wf = false ∧ (Instr.escseenOther 0x02#8).wf = false ∧
    (Instr.inframeOther 0x03#8).wf = false ∧ (Instr.inframeescOther 0x10#8).wf = false ∧
    (Instr.idleOther 0x02#8).wf = false ∧ (Instr.idleOther 0x03#8).wf = false := by decide

theorem test_other_header_refuses_nav_identifier :
    (Instr.hdrOther 0x00E0#16).wf = false ∧ (Instr.hdrOther 0xFCE0#16).wf = false := by decide

theorem test_wf_admits_operands :
    (Instr.idleOther 0x41#8).wf = true ∧ (Instr.hdrOther 0x01E0#16).wf = true ∧
    (Instr.navAccept 0x3F#6).wf = true ∧ (Instr.isset 15#4).wf = true := by decide

/-! ## Decoding: each row's word, written out from its encoding -/

theorem test_decode_precheck : decode .precheck [0x41#8, 0x02#8] = .ok .precheckOverflow := by decide

theorem test_decode_idle_rows :
    decodeStep 0b00_00010000#10 = .idleEsc ∧ decodeStep 0b00_00000010#10 = .idleStart ∧
    decodeStep 0b00_00000011#10 = .idleEnd ∧ decodeStep 0b00_01000001#10 = .idleOther 0x41#8 ∧
    decodeTableWord 16 0x010 = some .idleEsc ∧ decodeTableWord 16 0x000 = some (.idleOther 0x00#8) := by decide

theorem test_decode_escseen_rows :
    decodeStep 0b01_00010000#10 = .escseenEsc ∧ decodeStep 0b01_00000010#10 = .escseenStart ∧
    decodeStep 0b01_00000011#10 = .escseenEnd ∧ decodeStep 0b01_01000001#10 = .escseenOther 0x41#8 ∧
    decodeTableWord 16 0x110 = some .escseenEsc ∧ decodeTableWord 16 0x100 = some (.escseenOther 0x00#8) := by decide

theorem test_decode_inframe_rows :
    decodeStep 0b10_00010000#10 = .inframeEsc ∧ decodeStep 0b10_00000010#10 = .inframeStart ∧
    decodeStep 0b10_00000011#10 = .inframeEnd ∧ decodeStep 0b10_01000001#10 = .inframeOther 0x41#8 ∧
    decodeTableWord 16 0x210 = some .inframeEsc ∧ decodeTableWord 16 0x200 = some (.inframeOther 0x00#8) := by decide

theorem test_decode_inframeesc_rows :
    decodeStep 0b11_00010000#10 = .inframeescEsc ∧ decodeStep 0b11_00000010#10 = .inframeescStart ∧
    decodeStep 0b11_00000011#10 = .inframeescEnd ∧ decodeStep 0b11_01000001#10 = .inframeescOther 0x41#8 ∧
    decodeTableWord 16 0x310 = some .inframeescEsc ∧ decodeTableWord 16 0x300 = some (.inframeescOther 0x00#8) := by decide

theorem test_decode_header_rows :
    decode .header [0x80#8, 0xE0#8] = .ok (.navAccept 0b100000#6) ∧
    decode .header [0x00#8, 0xE1#8] = .ok (.hdrOther 0x00E1#16) ∧
    decodeTableWord 16 0x0E0 = some (.navAccept 0#6) ∧
    decodeTableWord 16 0x8001 = some (.hdrOther 0x8001#16) := by decide

theorem test_decode_isset :
    decode .accessor [0x0A#8] = .ok (.isset 0b1010#4) ∧ decodeTableWord 8 0x10 = none := by decide

theorem test_decode_refuses_by_name :
    decode .step [0x10#8] = .error .wrongLength ∧ decode .header [] = .error .wrongLength ∧
    decode (.field .depthMetres) [0x00#8, 0x00#8] = .error .wrongLength ∧
    decode .accessor [0xFF#8] = .error .flagIndexOutOfRange ∧
    decode .step [0x10#8, 0x04#8] = .error .stateBitsOutOfRange := by decide

/-- Field words of V1, low byte first. -/
theorem test_decode_field_rows_a :
    decode (.field .timeOfValidity) [0xE9#8, 0x22#8, 0x64#8, 0x39#8, 0x00#8, 0x00#8] = .ok (.navTimeOfValidity 962863849#48) ∧
    decode (.field .latitudeDegrees) [0x11#8, 0x11#8, 0x11#8, 0x11#8] = .ok (.navLatitudeDegrees 286331153#32) ∧
    decode (.field .longitudeDegrees) [0xB0#8, 0x05#8, 0x5B#8, 0x10#8] = .ok (.navLongitudeDegrees 274400688#32) ∧
    decode (.field .depthMetres) [0xD0#8, 0x84#8, 0x00#8, 0x00#8] = .ok (.navDepthMetres 34000#32) ∧
    decode (.field .altitudeMetres) [0xE8#8, 0x03#8] = .ok (.navAltitudeMetres 1000#16) ∧
    decode (.field .rollDegrees) [0xAA#8, 0x0A#8] = .ok (.navRollDegrees 2730#16) ∧
    decode (.field .pitchDegrees) [0xC7#8, 0x11#8] = .ok (.navPitchDegrees 4551#16) ∧
    decode (.field .headingDegrees) [0xE3#8, 0x18#8] = .ok (.navHeadingDegrees 6371#16) := by decide

/-- Field words of V1, low byte first. -/
theorem test_decode_field_rows_b :
    decode (.field .velocityNorth) [0xD0#8, 0x07#8] = .ok (.navVelocityNorth 2000#16) ∧
    decode (.field .velocityEast) [0xB8#8, 0x0B#8] = .ok (.navVelocityEast 3000#16) ∧
    decode (.field .velocityDown) [0xA0#8, 0x0F#8] = .ok (.navVelocityDown 4000#16) ∧
    decode (.field .angularRateFwd) [0xF4#8, 0x01#8] = .ok (.navAngularRateFwd 500#16) ∧
    decode (.field .angularRateStarboard) [0x58#8, 0x02#8] = .ok (.navAngularRateStarboard 600#16) ∧
    decode (.field .angularRateDown) [0xBC#8, 0x02#8] = .ok (.navAngularRateDown 700#16) ∧
    decode (.field .accelerationFwd) [0x40#8, 0x1F#8] = .ok (.navAccelerationFwd 8000#16) ∧
    decode (.field .accelerationStarboard) [0x28#8, 0x23#8] = .ok (.navAccelerationStarboard 9000#16) ∧
    decode (.field .accelerationDown) [0x10#8, 0x27#8] = .ok (.navAccelerationDown 10000#16) := by decide

/-- Field words of V1, low byte first. -/
theorem test_decode_field_rows_c :
    decode (.field .errorEstimate0) [0x00#8, 0x00#8, 0x30#8, 0x41#8] = .ok (.navErrorEstimate0 1093664768#32) ∧
    decode (.field .errorEstimate1) [0x00#8, 0x00#8, 0x40#8, 0x41#8] = .ok (.navErrorEstimate1 1094713344#32) ∧
    decode (.field .errorEstimate2) [0x00#8, 0x00#8, 0x50#8, 0x41#8] = .ok (.navErrorEstimate2 1095761920#32) ∧
    decode (.field .errorEstimate3) [0x00#8, 0x00#8, 0x60#8, 0x41#8] = .ok (.navErrorEstimate3 1096810496#32) ∧
    decode (.field .errorEstimate4) [0x00#8, 0x00#8, 0x70#8, 0x41#8] = .ok (.navErrorEstimate4 1097859072#32) ∧
    decode (.field .errorEstimate5) [0x00#8, 0x00#8, 0x80#8, 0x41#8] = .ok (.navErrorEstimate5 1098907648#32) ∧
    decode (.field .errorEstimate6) [0x00#8, 0x00#8, 0x88#8, 0x41#8] = .ok (.navErrorEstimate6 1099431936#32) ∧
    decode (.field .errorEstimate7) [0x00#8, 0x00#8, 0x90#8, 0x41#8] = .ok (.navErrorEstimate7 1099956224#32) ∧
    decode (.field .errorEstimate8) [0x00#8, 0x00#8, 0x98#8, 0x41#8] = .ok (.navErrorEstimate8 1100480512#32) ∧
    decode (.field .errorEstimate9) [0x00#8, 0x00#8, 0xA0#8, 0x41#8] = .ok (.navErrorEstimate9 1101004800#32) ∧
    decode (.field .errorEstimate10) [0x00#8, 0x00#8, 0xA8#8, 0x41#8] = .ok (.navErrorEstimate10 1101529088#32) ∧
    decode (.field .statusFlags) [0x00#8, 0x00#8] = .ok (.navStatusFlags 0#16) := by decide

theorem test_wire_of_worked_example : rawFrame f1 = wire1 := by decide +kernel

/-! ## The deframer: V-T vectors (one step each) -/

theorem test_overflow_then_escape : view (step { feeding .inFrame [1, 2, 3, 4, 5] 0x10#8 with byteIndex := 7 }) =
    some (.escapeSeen, [], false, [.label 7 .overflow]) := by decide
theorem test_no_overflow_at_bound : view (step (feeding .inFrame [1, 2, 3, 4] 0x41#8)) =
    some (.inFrame, [1, 2, 3, 4, 0x41#8], false, []) := by decide
theorem test_idle_escape : view (step (feeding .idle [] 0x10#8)) = some (.escapeSeen, [], false, []) := by decide
theorem test_idle_start : view (step (feeding .idle [] 0x02#8)) = some (.idle, [], false, []) := by decide
theorem test_idle_end : view (step (feeding .idle [] 0x03#8)) = some (.idle, [], false, []) := by decide
theorem test_idle_other : view (step (feeding .idle [] 0xFF#8)) = some (.idle, [], false, []) := by decide
theorem test_escape_seen_escape : view (step (feeding .escapeSeen [] 0x10#8)) = some (.idle, [], false, []) := by decide
theorem test_escape_seen_start : view (step (feeding .escapeSeen [] 0x02#8)) = some (.inFrame, [], false, []) := by decide
theorem test_escape_seen_end : view (step (feeding .escapeSeen [] 0x03#8)) = some (.idle, [], false, []) := by decide
theorem test_escape_seen_other : view (step (feeding .escapeSeen [] 0x41#8)) = some (.idle, [], false, [.label 0 .framingError]) := by decide
theorem test_in_frame_escape : view (step (feeding .inFrame [0x00#8, 0xE0#8] 0x10#8)) = some (.inFrameEscapeSeen, [0x00#8, 0xE0#8], false, []) := by decide
theorem test_in_frame_start : view (step (feeding .inFrame [0x00#8] 0x02#8)) = some (.inFrame, [0x00#8, 0x02#8], false, []) := by decide
theorem test_in_frame_end : view (step (feeding .inFrame [0x00#8] 0x03#8)) = some (.inFrame, [0x00#8, 0x03#8], false, []) := by decide
theorem test_in_frame_other : view (step (feeding .inFrame [] 0x41#8)) = some (.inFrame, [0x41#8], false, []) := by decide
theorem test_in_frame_escape_escape : view (step (feeding .inFrameEscapeSeen [0x41#8] 0x10#8)) = some (.inFrame, [0x41#8, 0x10#8], false, []) := by decide
theorem test_in_frame_escape_start : view (step (feeding .inFrameEscapeSeen [] 0x02#8)) = some (.inFrame, [], false, [.label 0 .restart]) := by decide
theorem test_in_frame_escape_end_empty : view (step (feeding .inFrameEscapeSeen [] 0x03#8)) = some (.idle, [], false, [.label 0 .length]) := by decide
theorem test_in_frame_escape_end_bad : view (step (feeding .inFrameEscapeSeen [0x41#8] 0x03#8)) = some (.idle, [], false, [.label 0 .checksum]) := by decide
theorem test_in_frame_escape_other : view (step (feeding .inFrameEscapeSeen [0x41#8] 0x41#8)) = some (.idle, [], false, [.label 0 .framingError]) := by decide

/-! ## The parser: V-D vectors -/

/-- The trace and OutPending that completing a frame leaves. -/
def completing (f : List Byte) : Option (ParserState × Memory × Bool × List Obs) :=
  view (exec .inframeescEnd { State.reset with parser := .inFrameEscapeSeen, buf := f })

theorem test_worked_frame_emits : completing f1 = some (.idle, [], true, []) := by decide +kernel
theorem test_bad_checksum : completing (f1.set 92 0x7B#8) = some (.idle, [], false, [.label 0 .checksum]) := by decide +kernel
theorem test_short_frames :
    [[0x00#8], [0xE0#8, 0xE0#8], [0x01#8, 0x01#8], [0x02#8, 0xE0#8]].map completing =
      [some (.idle, [], false, [.label 0 .length]), some (.idle, [], false, [.label 0 .length]),
       some (.idle, [], false, [.label 0 .ident]), some (.idle, [], false, [.label 0 .checksum])] := by decide +kernel
theorem test_other_identifiers :
    completing (checkedFrame 0x00#8 0xE1#8 p1) = some (.idle, [], false, [.label 0 .ident]) ∧
    completing (checkedFrame 0x01#8 0xE0#8 p1) = some (.idle, [], false, [.label 0 .ident]) := by decide +kernel
theorem test_other_lengths :
    completing (checkedFrame 0x00#8 0xE0#8 (p1.take 89)) = some (.idle, [], false, [.label 0 .length]) ∧
    completing (checkedFrame 0x00#8 0xE0#8 (p1 ++ [0x00#8])) = some (.idle, [], false, [.label 0 .length]) := by decide +kernel
theorem test_ignored_header_bits :
    checkedFrame 0x80#8 0xE0#8 p1 = [0x80#8, 0xE0#8] ++ p1 ++ [0xFA#8] ∧
    completing (checkedFrame 0xFC#8 0xE0#8 p1) = some (.idle, [], true, []) := by decide +kernel

/-! ## The field decoder: V1 and V2, raw and exact physical values -/

theorem test_v1_raw : Field.all.map (fieldRaw (decodePayload p1)) =
    [962863849, 286331153, 274400688, 34000, 1000, 2730, 4551, 6371,
     2000, 3000, 4000, 500, 600, 700, 8000, 9000,
     10000, 1093664768, 1094713344, 1095761920, 1096810496, 1097859072, 1098907648, 1099431936,
     1099956224, 1100480512, 1101004800, 1101529088, 0] := by decide +kernel
theorem test_v1_phys : Field.all.map (fieldPhys (decodePayload p1)) =
    [some (mkRat (962863849) 1), some (mkRat (12884901885) 1073741824), some (mkRat (771751935) 33554432), some (mkRat (34) 1),
     some (mkRat (10) 1), some (mkRat (61425) 4096), some (mkRat (204795) 8192), some (mkRat (286695) 8192),
     some (mkRat (2) 1), some (mkRat (3) 1), some (mkRat (4) 1), some (mkRat (5) 1),
     some (mkRat (6) 1), some (mkRat (7) 1), some (mkRat (8) 1), some (mkRat (9) 1),
     some (mkRat (10) 1), none, none, none,
     none, none, none, none,
     none, none, none, none,
     some (mkRat (0) 1)] := by decide +kernel
theorem test_v2_raw : Field.all.map (fieldRaw (decodePayload q2)) =
    [281474976710655, -2147483648, 2147483647, -1, 65535, -32768, 32767, 32768,
     -32768, 32767, 0, -1, 1, 16, 2, 3,
     4112, 2143289344, 2139095041, 2139095040, 4286578688, 2147483648, 1, 2139095039,
     1065353216, 3212836864, 8388608, 0, 32769] := by decide +kernel
theorem test_v2_phys : Field.all.map (fieldPhys (decodePayload q2)) =
    [some (mkRat (281474976710655) 1), some (mkRat (-90) 1), some (mkRat (96636764115) 536870912), some (mkRat (-1) 1000),
     some (mkRat (13107) 20), some (mkRat (-180) 1), some (mkRat (1474515) 8192), some (mkRat (180) 1),
     some (mkRat (-4096) 125), some (mkRat (32767) 1000), some (mkRat (0) 1), some (mkRat (-1) 100),
     some (mkRat (1) 100), some (mkRat (4) 25), some (mkRat (1) 500), some (mkRat (3) 1000),
     some (mkRat (514) 125), none, none, none,
     none, none, none, none,
     none, none, none, none,
     some (mkRat (32769) 1)] := by decide +kernel
/-- The binary64 column of V1, as patterns of the decimals it lists. -/
theorem test_v1_binary64 : (Field.all.take 17).filterMap (fun f => (fieldPhys (decodePayload p1) f).map binary64Nearest) =
    [0x41ccb21174800000#64, 0x4027ffffffe80000#64, 0x4036ffffff800000#64, 0x4041000000000000#64,
     0x4024000000000000#64, 0x402dfe2000000000#64, 0x4038ffd800000000#64, 0x40417f9c00000000#64,
     0x4000000000000000#64, 0x4008000000000000#64, 0x4010000000000000#64, 0x4014000000000000#64,
     0x4018000000000000#64, 0x401c000000000000#64, 0x4020000000000000#64, 0x4022000000000000#64,
     0x4024000000000000#64] := by decide +kernel
/-- The binary64 column of V2, as patterns of the decimals it lists. -/
theorem test_v2_binary64 : (Field.all.take 17).filterMap (fun f => (fieldPhys (decodePayload q2) f).map binary64Nearest) =
    [0x42efffffffffffe0#64, 0xc056800000000000#64, 0x40667fffffd30000#64, 0xbf50624dd2f1a9fc#64,
     0x40847acccccccccd#64, 0xc066800000000000#64, 0x40667fd300000000#64, 0x4066800000000000#64,
     0xc040624dd2f1a9fc#64, 0x4040622d0e560419#64, 0x0000000000000000#64, 0xbf847ae147ae147b#64,
     0x3f847ae147ae147b#64, 0x3fc47ae147ae147b#64, 0x3f60624dd2f1a9fc#64, 0x3f689374bc6a7efa#64,
     0x401072b020c49ba6#64] := by decide +kernel
/-- The binary32 readings of V2 and of 11.0. -/
theorem test_v2_binary32 :
    binary32 0x7FC00000#32 = .nan true ∧ binary32 0x7F800001#32 = .nan false ∧
    binary32 0x7F800000#32 = .infinity false ∧ binary32 0xFF800000#32 = .infinity true ∧
    binary32 0x80000000#32 = .finite true 0 ∧ binary32 0x00000001#32 = .finite false (mkRat 1 (2 ^ 149)) ∧
    binary32 0x7F7FFFFF#32 = .finite false (mkRat ((2 ^ 24 - 1) * 2 ^ 104) 1) ∧
    binary32 0xBF800000#32 = .finite true 1 ∧ binary32 0x00800000#32 = .finite false (mkRat 1 (2 ^ 126)) ∧
    binary32 0x41300000#32 = .finite false 11 := by decide +kernel

/-! ## The accessor: V-S1, V-S2 -/

theorem test_isset_v_s1 : (List.range 16).filter (fun k => isSet (decodePayload q2) (BitVec.ofNat 4 k)) = [0, 15] := by
  decide +kernel
theorem test_isset_v_s2 :
    (List.range 16).filter (fun k => isSet { Record.blank with statusFlags := 0x006A#16 } (BitVec.ofNat 4 k)) = [1, 3, 5, 6] := by
  decide
theorem test_isset_faults_without_record : faultOf (exec (.isset 3#4) State.reset) = some .statusBitHasNoValue := by decide

/-! ## Table words run as the next step -/

theorem test_fetch_step_word : view (step (State.reset.withFetchWord 16 0x102)) = some (.inFrame, [], false, []) := by decide
theorem test_fetch_nav_header : view (step (State.reset.withFetchWord 16 0x0E0)) = some (.idle, [], true, []) := by
  decide +kernel
theorem test_fetch_field_word :
    (match step (State.reset.withFetchWord 48 0x123456789ABC) with
      | .next s => s.outRecord.map Record.timeOfValidity
      | _ => none) = some 0x123456789ABC#48 := by decide +kernel

/-- A reset that comes first loses the pending record although out_ready is 1; one that waits comes after it (R250). -/
theorem test_rst_before_acceptance :
    view (step (acceptable.setEvents [⟨true, .rst⟩])) = some (.idle, [], false, []) ∧
    view (step (acceptable.setEvents [⟨false, .rst⟩])) = some (.idle, [], false, [.record Record.blank]) := by
  decide +kernel
/-- With no consumer a pending record is lost before an attach that comes first: the late consumer does not get it (D15). -/
theorem test_attach_after_emission :
    (match steps 3 (((pendingState Record.blank).setConsumer none).setEvents [⟨true, .attach⟩, ⟨true, .accept⟩]) with
      | .next s => some (s.consumer, s.outPending, delivered s)
      | _ => none) = some (some false, false, []) := by decide +kernel
/-- A reset that comes first finds the presented byte untaken (R250). -/
theorem test_rst_before_byte :
    view (step ((feeding .inFrame [1, 2] 0x41#8).setEvents [⟨true, .rst⟩])) = some (.idle, [], false, []) ∧
    view (step ((feeding .inFrame [1, 2] 0x41#8).setEvents [⟨false, .rst⟩])) =
      some (.inFrame, [1, 2, 0x41#8], false, []) := by decide

/-- The corner values of V2 whose fields R196 names are exact in binary64. -/
theorem test_v2_reads_back : ([.timeOfValidity, .latitudeDegrees, .longitudeDegrees, .rollDegrees, .pitchDegrees,
      .headingDegrees, .statusFlags] : List Field).all (fun f => (fieldPhys (decodePayload q2) f).any fun x =>
      binary64Value (binary64Nearest x) == some x) = true := by decide +kernel

/-! ## Witnesses: states and operands that meet the hypotheses of each statement -/

theorem witness_EveryStateAndByteSelectsItsRow : (0x41#8 : Byte) ≠ 0x10#8 ∧ (0x41#8 : Byte) ≠ 0x02#8 ∧ (0x41#8 : Byte) ≠ 0x03#8 := by
  decide
theorem witness_StepRowsMatchUnderTheirMasks : ∃ r ∈ stepRows, r.matches 0x210#10 = true ∧ r.mask = 0x3FF#10 ∧
    ∃ q ∈ stepRows, q.matches 0x210#10 = true ∧ q.bits ≠ r.bits ∧ r.priority < q.priority := by decide
theorem witness_DecodeInvertsEncode : (Instr.idleOther 0x41#8).wf = true ∧ (Instr.hdrOther 0x01E0#16).wf = true ∧
    (Instr.navTimeOfValidity 1#48).wf = true := by decide
theorem witness_HeaderIdentifierMatch : frameId [0x00#8, 0xE0#8] = 224 ∧ frameId [0x01#8, 0xE0#8] ≠ 224 := by decide
theorem witness_OverflowPrecheckHardResets :
    (stateAt .inFrame [1, 2, 3, 4, 5]).bufMax < (stateAt .inFrame [1, 2, 3, 4, 5]).buf.length ∧
    BoundaryInv (stateAt .inFrame [1, 2, 3, 4, 5]) ∧
    (stateAt .inFrame [1, 2, 3, 4]).buf.length ≤ (stateAt .inFrame [1, 2, 3, 4]).bufMax := by decide
theorem witness_PendingEscapeOutsideFrameIsDropped :
    (stateAt .idle []).parser = .idle ∧ (stateAt .escapeSeen []).parser = .escapeSeen := by decide
theorem witness_EscapeStartOpensAFrame : ∃ t, inFrameFlag (stateAt .escapeSeen []).parser = false ∧
    byteTransaction 0x02#8 (stateAt .escapeSeen []) = .next t ∧ inFrameFlag t.parser = true := ⟨_, rfl, rfl, rfl⟩
theorem witness_LiteralBytesInFrameAreAppended :
    (stateAt .inFrame [1, 2, 3, 4]).buf.length = (stateAt .inFrame [1, 2, 3, 4]).bufMax ∧
    (0 : Nat) ≠ (stateAt .inFrame [1, 2]).buf.length := by decide
theorem witness_DoubledEscapeAppendsOneEscape :
    (stateAt .inFrameEscapeSeen [1, 2, 3, 4]).buf.length = (stateAt .inFrameEscapeSeen [1, 2, 3, 4]).bufMax := by decide
theorem witness_EscapeStartInsideAFrameRestarts : (stateAt .inFrameEscapeSeen [1, 2, 3, 4]).parser = .inFrameEscapeSeen ∧
    (stateAt .inFrameEscapeSeen [1, 2, 3, 4]).buf.length = (stateAt .inFrameEscapeSeen [1, 2, 3, 4]).bufMax := by decide
theorem witness_NavAcceptEmitsTheDecodedRecord :
    ((stateAt .idle []).setFrame f1).frame.length = 93 ∧ ((stateAt .idle []).setFrame (f1.take 92)).frame.length ≠ 93 := by
  decide +kernel
theorem witness_DispatchRunsTheHeaderRow :
    (xorAll [0x01#8, 0x01#8] = 0#8 ∧ 2 ≤ [0x01#8, 0x01#8].length) ∧ xorAll [0x01#8] ≠ 0#8 ∧
    (xorAll [0x00#8] = 0#8 ∧ [0x00#8].length < 2) := by decide
theorem witness_CheckedNavigationFrameIsAccepted : p1.length = 90 ∧ (0xFC#8 : Byte).extractLsb' 0 2 = 0#2 ∧
    (0x01#8 : Byte).extractLsb' 0 2 ≠ 0#2 := by decide +kernel
theorem witness_PayloadViewOfAnAcceptedFrame : accepted f1 = true ∧ 89 < 90 ∧ 90 ≤ 90 := by decide +kernel
theorem witness_SingleBitErrorsAreRejected : accepted f1 = true ∧ 92 < f1.length ∧ 7 < 8 := by decide +kernel
theorem witness_FieldRowsInAnyOrderDecodeThePayload : Field.all.reverse.Perm Field.all ∧ Field.all.reverse ≠ Field.all :=
  ⟨List.reverse_perm _, by decide⟩
theorem witness_SignedExtractionRange : (1 : Nat) ≤ 2 ∧ extractS [0x00#8, 0x80#8] 0 2 = -32768 := by decide
theorem witness_LatitudeIsSignedAndScaledByNinety :
    (q2.length = 90 ∧ (q2.drop 6).take 4 = [0x00#8, 0x00#8, 0x00#8, 0x80#8]) ∧
    (p1.length = 90 ∧ (p1.drop 6).take 4 = [0x11#8, 0x11#8, 0x11#8, 0x11#8]) ∧
    ((List.replicate 90 0xFF#8).length = 90 ∧
      ((List.replicate 90 0xFF#8).drop 6).take 4 = [0xFF#8, 0xFF#8, 0xFF#8, 0xFF#8]) := by decide +kernel
theorem witness_HeadingIsUnsignedWhereRollIsSigned :
    (q2.length = 90 ∧ (q2.drop 24).take 2 = [0x00#8, 0x80#8] ∧ (q2.drop 20).take 2 = [0x00#8, 0x80#8]) ∧
    (p1.length = 90 ∧ (p1.drop 24).take 2 = [0xE3#8, 0x18#8]) ∧
    ((List.replicate 90 0xFF#8).length = 90 ∧ ((List.replicate 90 0xFF#8).drop 24).take 2 = [0xFF#8, 0xFF#8]) := by
  decide +kernel
theorem witness_AngleAndTimeFieldsAreExactInBinary64 :
    Field.timeOfValidity ∈ ([.timeOfValidity, .latitudeDegrees, .longitudeDegrees, .rollDegrees, .pitchDegrees,
      .headingDegrees, .statusFlags] : List Field) := by decide
theorem witness_OutRecordPortIsTheLittleEndianPayload : p1.length = 90 ∧
    (pendingState Record.blank).outPending = true ∧ (pendingState Record.blank).outRecord = some Record.blank ∧
    State.reset.outPending = false := by decide +kernel
theorem witness_Binary32PatternsReadAsIeee754 :
    (1 ≤ ((0x00800000#32).extractLsb' 23 8).toNat ∧ ((0x7F7FFFFF#32).extractLsb' 23 8).toNat ≤ 254) ∧
    ((0x00000001#32).extractLsb' 23 8).toNat = 0 ∧
    (((0x7F800000#32).extractLsb' 23 8).toNat = 255 ∧ ((0x7F800000#32).extractLsb' 0 23).toNat = 0) ∧
    (((0x7F800001#32).extractLsb' 23 8).toNat = 255 ∧ ((0x7F800001#32).extractLsb' 0 23).toNat ≠ 0) := by decide
theorem witness_IsSetReadsThePendingRecord :
    ((pendingState Record.blank).outPending = true ∧ (pendingState Record.blank).outRecord = some Record.blank) ∧
    State.reset.outPending = false := by decide
theorem witness_StatusBitsComeFromPayloadBytes88And89 : q2.length = 90 ∧ isSet (decodePayload q2) 15#4 = true := by
  decide +kernel
theorem witness_StepRunsTheDecodedRow :
    ((feeding .inFrame [1, 2, 3, 4] 0x41#8).outPending = false ∧ (feeding .inFrame [1, 2, 3, 4] 0x41#8).inPort = [0x41#8] ∧
      (feeding .inFrame [1, 2, 3, 4] 0x41#8).buf.length ≤ (feeding .inFrame [1, 2, 3, 4] 0x41#8).bufMax) ∧
    ((feeding .inFrame [1, 2, 3, 4, 5] 0x41#8).outPending = false ∧
      (feeding .inFrame [1, 2, 3, 4, 5] 0x41#8).bufMax < (feeding .inFrame [1, 2, 3, 4, 5] 0x41#8).buf.length) ∧
    ((pendingState Record.blank).outPending = true ∧ (pendingState Record.blank).outReady = false ∧
      ((pendingState Record.blank).setEvents [⟨false, .readStatus 3#4⟩]).events = [⟨false, .readStatus 3#4⟩] ∧
      ((pendingState Record.blank).setEvents [⟨true, .readRecord⟩]).events = [⟨true, .readRecord⟩] ∧
      acceptable.acceptsAtOnce = false) ∧
    (feeding .inFrame [1, 2, 3, 4] 0x41#8).hostFirst = false := by decide
theorem witness_EveryStepKeepsTheInvariant : ∃ t, BoundaryInv (feeding .inFrame [1, 2, 3, 4] 0x41#8) ∧
    step (feeding .inFrame [1, 2, 3, 4] 0x41#8) = .next t := ⟨_, by decide, rfl⟩
theorem witness_ResetEventClearsTheBlock :
    ((acceptable.setEvents [⟨true, .rst⟩]).events = [⟨true, .rst⟩] ∧ acceptable.outReady = true) ∧
    ((pendingState Record.blank).outPending = true ∧ (pendingState Record.blank).outReady = false ∧
      ((pendingState Record.blank).setEvents [⟨false, .rst⟩]).events = [⟨false, .rst⟩]) ∧
    ((stateAt .inFrame [1, 2]).outPending = false ∧ (stateAt .inFrame [1, 2]).inPort = [] ∧
      ((stateAt .inFrame [1, 2]).setEvents [⟨false, .rst⟩]).events = [⟨false, .rst⟩]) := by decide
theorem witness_ResetEventClearsTheBlock_turn : ∃ t, hostTurn (acceptable.setEvents [⟨true, .rst⟩]) = .next t :=
  ⟨_, rfl⟩
theorem witness_AcceptanceDeliversTheRecordOnce :
    (pendingState Record.blank).outPending = true ∧ (pendingState Record.blank).outRecord = some Record.blank ∧
    ((pendingState Record.blank).setConsumer (some true)).consumer = some true ∧
    ((pendingState Record.blank).setConsumer none).consumer = none ∧
    (((pendingState Record.blank).setConsumer none).setEvents [⟨true, .attach⟩]).events.head? ≠ some ⟨true, .rst⟩ ∧
    (pendingState Record.blank).consumer = some false ∧
    ((pendingState Record.blank).setEvents [⟨false, .accept⟩]).events = [⟨false, .accept⟩] ∧
    ((pendingState Record.blank).setConsumer (some true)).hostFirst = false := by decide
theorem witness_NoByteIsConsumedWhileARecordIsPending : ∃ t,
    ((pendingState Record.blank).setInPort [0x10#8]).outPending = true ∧
    ((pendingState Record.blank).setInPort [0x10#8]).outReady = false ∧
    step ((pendingState Record.blank).setInPort [0x10#8]) = .next t ∧ t.outPending = true ∧
    ((pendingState Record.blank).setInPort [0x10#8]).events = [] := ⟨_, rfl, rfl, rfl, rfl, rfl⟩
theorem witness_ByteTransactionGivesAtMostOneRecordOrLabel :
    ({ State.reset with parser := .inFrameEscapeSeen, buf := f1 } : State).outPending = false := by decide
theorem witness_OnlyPortReadsFault : BoundaryInv (State.reset.setEvents [⟨false, .readRecord⟩]) ∧
    faultOf (step (State.reset.setEvents [⟨false, .readRecord⟩])) = some .outRecordHasNoValue ∧
    faultOf (step ((feeding .idle [] 0x10#8).setEvents [⟨true, .readStatus 0#4⟩])) = some .statusBitHasNoValue := by
  decide
theorem witness_BufferChangesOnlyByAppendAndClear : ∃ t, step (feeding .inFrame [1, 2] 0x41#8) = .next t ∧
    t.buf = [1, 2, 0x41#8] := ⟨_, rfl, rfl⟩
theorem witness_BufferBoundIsFixedAtBuild : ∃ t, step (pendingState Record.blank) = .next t ∧
    (pendingState Record.blank).consumer.isSome = true := ⟨_, rfl, rfl⟩
theorem witness_DeframerReadsOnlyTheBufferLength :
    ([7, 8] : Memory).length = (stateAt .inFrameEscapeSeen [1, 2]).buf.length ∧
    ¬ ((stateAt .inFrameEscapeSeen [1, 2]).parser = .inFrameEscapeSeen ∧ (0x10#8 : Byte) = 0x03#8 ∧
      (stateAt .inFrameEscapeSeen [1, 2]).buf.length ≤ (stateAt .inFrameEscapeSeen [1, 2]).bufMax) := by decide
theorem witness_TraceIsNeverRead : (∃ t, step (feeding .escapeSeen [] 0x41#8) = .next t) ∧
    ∃ r, step (State.reset.setEvents [⟨false, .readRecord⟩]) = .fault r := ⟨⟨_, rfl⟩, ⟨_, rfl⟩⟩
theorem witness_FramingRoundTrip :
    ((stateAt .inFrame [1, 2]).setInPort (rawFrame [0x10#8, 0x02#8])).hostFirst = false ∧
    (feeding .idle [] 0#8).outPending = false ∧ escPendingFlag .idle = false ∧ escPendingFlag .inFrame = false ∧
    (stateAt .inFrame [1, 2]).buf.length ≤ (stateAt .inFrame [1, 2]).bufMax ∧
    ([0x10#8, 0x02#8] : List Byte).length ≤ (stateAt .inFrame [1, 2]).bufMax ∧
    ((stateAt .inFrame [1, 2]).setInPort (rawFrame [0x10#8, 0x02#8])).inPort = rawFrame [0x10#8, 0x02#8] ++ [] := by decide
theorem witness_DanglingEscapeLosesTheNextFrame :
    (stateAt .escapeSeen []).hostFirst = false ∧
    (stateAt .escapeSeen []).parser = .escapeSeen ∧ (stateAt .escapeSeen []).buf = [] ∧
    (stateAt .escapeSeen []).outPending = false ∧
    ((stateAt .escapeSeen []).setInPort (rawFrame [0x10#8])).inPort = rawFrame [0x10#8] ++ [] := by decide
/-- A state inside a frame with the bound 100 of V-F6 and P4. -/
def oversized : State :=
  { State.reset with parser := .inFrame, bufMax := 100, inPort := List.replicate 101 0xAA#8 ++ rawFrame f1 ++ [] }
theorem witness_OverflowThenFrameGivesOneDecode : BoundaryInv oversized ∧ oversized.hostFirst = false ∧ oversized.parser = .inFrame ∧
    oversized.outPending = false ∧ (∀ b ∈ List.replicate 101 0xAA#8, b ≠ 0x10#8) ∧
    oversized.bufMax < oversized.buf.length + (List.replicate 101 0xAA#8).length ∧ 93 ≤ oversized.bufMax ∧
    accepted f1 = true ∧ oversized.inPort = List.replicate 101 0xAA#8 ++ rawFrame f1 ++ [] := by decide +kernel
theorem witness_ChunkBoundariesHaveNoEffect : State.reset.outPending = false ∧ State.reset.inPort = [] ∧
    State.hostFirst { State.reset with events := [⟨false, .rst⟩] } = false := by decide

end Sys2Proof.Tests
end

section
/-! PROOFS of the statements about the state: the encoding of the parser state, the reset state, and what no step
changes. -/

namespace Sys2Proof.Machine

/-! ### The parser state (R21, R22) -/

/-- Every 2-bit pattern is the code of the state it names (R21). -/
@[simp] theorem code_ofCode (c : BitVec 2) : (ParserState.ofCode c).code = c := by
  unfold ParserState.ofCode
  split_ifs with h0 h1 h2
  · exact h0.symm
  · exact h1.symm
  · exact h2.symm
  · change 0b11#2 = c
    bv_omega

/-- A one-bit slice is 1 exactly when that bit is set: the two spellings of `state[k]` (R22). -/
theorem getLsbD_eq_extractLsb'_beq_one {w : Nat} (x : BitVec w) (k : Nat) :
    x.getLsbD k = (x.extractLsb' k 1 == 1#1) := by
  rw [Bool.eq_iff_iff, beq_iff_eq]
  constructor
  · intro h
    ext i hi
    obtain rfl : i = 0 := by omega
    simp [h]
  · intro h
    simpa using congrArg (·.getLsbD 0) h

/-- Settles O1: `ofCode` inverts `code` on both sides, and the two views are its bits. -/
theorem parserStateEncoding : Obligations.ParserStateEncoding :=
  ⟨⟨rfl, rfl, rfl, rfl⟩, ofCode_code, code_ofCode,
    fun p => ⟨getLsbD_eq_extractLsb'_beq_one p.code 1, getLsbD_eq_extractLsb'_beq_one p.code 0⟩⟩

/-! ### The reset state (R33) -/

/-- The reset state has the invariant of every event boundary (R259): nothing is buffered, pending or under decode. -/
theorem boundaryInv_reset : BoundaryInv State.reset :=
  ⟨fun _ => rfl, wf_reset, by simp [State.reset], rfl, rfl, rfl⟩

/-- Settles O42, each value of the reset table by evaluation. -/
theorem resetStateHoldsTheResetValues : Obligations.ResetStateHoldsTheResetValues :=
  ⟨rfl, rfl, rfl, rfl, rfl, boundaryInv_reset, rfl, rfl, rfl, rfl⟩

/-! ### What the block's rows leave alone -/

/-- Two states agree in what surrounds the block: the build parameter `BUF_MAX`, and the host's side with its byte
count. -/
structure SameSurroundings (s t : State) : Prop where
  bufMax : t.bufMax = s.bufMax
  consumer : t.consumer = s.consumer
  inPort : t.inPort = s.inPort
  events : t.events = s.events
  byteIndex : t.byteIndex = s.byteIndex

namespace SameSurroundings

variable {s t u : State}

@[refl] theorem refl (s : State) : SameSurroundings s s := ⟨rfl, rfl, rfl, rfl, rfl⟩

@[trans] theorem trans (h : SameSurroundings s t) (h' : SameSurroundings t u) : SameSurroundings s u :=
  ⟨h'.bufMax.trans h.bufMax, h'.consumer.trans h.consumer, h'.inPort.trans h.inPort, h'.events.trans h.events,
    h'.byteIndex.trans h.byteIndex⟩

/-- Counting the byte on both sides keeps the agreement. -/
theorem nextByte (h : SameSurroundings s t) : SameSurroundings s.nextByte t.nextByte :=
  ⟨h.bufMax, h.consumer, h.inPort, h.events, congrArg (· + 1) h.byteIndex⟩

end SameSurroundings

section
variable {s t : State}

/-- ISSET answers a next state only while a record is pending, and then only observes its bit (R210). -/
theorem execIsset_eq_next {k : BitVec 4} (h : execIsset k s = .next t) :
    ∃ r, s.outPending = true ∧ s.outRecord = some r ∧ t = s.observe (.statusBit k (isSet r k)) := by
  unfold execIsset at h
  split at h
  · next r hp hr => cases h; exact ⟨r, hp, hr, rfl⟩
  · cases h

/-- A read of `out_record` answers a next state only while a record is pending, and then only observes it (R231). -/
theorem readOutRecord_eq_next (h : readOutRecord s = .next t) :
    ∃ r, s.outPending = true ∧ s.outRecord = some r ∧ t = s.observe (.outRecord r.packed) := by
  unfold readOutRecord at h
  split at h
  · next r hp hr => cases h; exact ⟨r, hp, hr, rfl⟩
  · cases h

/-- The pre-check does nothing or the hard reset with its label (R102). -/
theorem execPrecheckOverflow_cases (s : State) :
    (s.bufMax < s.buf.length ∧ execPrecheckOverflow s = .next (s.hardReset.discard .overflow)) ∨
    (s.buf.length ≤ s.bufMax ∧ execPrecheckOverflow s = .next s) := by
  by_cases hlen : s.bufMax < s.buf.length
  · exact .inl ⟨hlen, if_pos hlen⟩
  · exact .inr ⟨Nat.le_of_not_lt hlen, if_neg hlen⟩

theorem execPrecheckOverflow_sameSurroundings (h : execPrecheckOverflow s = .next t) : SameSurroundings s t := by
  obtain ⟨_, hs⟩ | ⟨_, hs⟩ := execPrecheckOverflow_cases s
  · cases hs.symm.trans h; constructor <;> rfl
  · cases hs.symm.trans h; rfl

/-- The length stage emits the record or labels the frame (R145, R146). -/
theorem execNavAccept_sameSurroundings {x : BitVec 6} (h : execNavAccept x s = .next t) : SameSurroundings s t := by
  by_cases hlen : s.frame.length - Config.frameOverhead = Config.navPayloadLen
  · cases (execNavAccept_of_length hlen).symm.trans h; constructor <;> rfl
  · rw [execNavAccept, if_neg hlen] at h
    cases h; constructor <;> rfl

theorem dispatch_sameSurroundings {f : List Byte} (h : dispatch f s = .next t) : SameSurroundings s t := by
  obtain ⟨d, hd⟩ | ⟨d, hd⟩ | ⟨_, _, _, hd⟩ := dispatch_cases f s
  all_goals cases hd.symm.trans h; constructor <;> rfl

/-- A completed frame touches the surroundings only as far as its dispatch does (R117). -/
theorem execInframeescEnd_sameSurroundings (h : execInframeescEnd s = .next t) : SameSurroundings s t := by
  obtain ⟨u, hu, ht⟩ := andThen_eq_next h
  cases ht
  have hclear : SameSurroundings s s.hardReset := by constructor <;> rfl
  have hend : SameSurroundings u u.endDispatch := by constructor <;> rfl
  exact (hclear.trans (dispatch_sameSurroundings hu)).trans hend

/-- No row of the table reaches outside the block. Four rows decide something first; every other one is a single
update of the block. -/
theorem exec_sameSurroundings {i : Instr} (h : exec i s = .next t) : SameSurroundings s t := by
  cases i
  case precheckOverflow => exact execPrecheckOverflow_sameSurroundings h
  case inframeescEnd => exact execInframeescEnd_sameSurroundings h
  case navAccept x => exact execNavAccept_sameSurroundings (x := x) h
  case isset =>
    obtain ⟨r, _, _, rfl⟩ := execIsset_eq_next h
    constructor <;> rfl
  all_goals cases h; constructor <;> rfl

/-- A byte transaction reaches outside the block only to count its byte. -/
theorem byteTransaction_sameSurroundings {b : Byte} (h : byteTransaction b s = .next t) :
    SameSurroundings s.nextByte t := by
  obtain ⟨u, hpre, hrow⟩ := andThen_eq_next h
  obtain ⟨v, hv, ht⟩ := andThen_eq_next hrow
  cases ht
  exact ((exec_sameSurroundings hpre).trans (exec_sameSurroundings hv)).nextByte

end

/-! ### The wiring of the block: BUF_MAX and the consumer (R27, R8) -/

/-- From `s` to `t` the bound stays as it was built and an attached consumer stays attached (log 1, log 12). -/
def KeepsWiring (s t : State) : Prop :=
  t.bufMax = s.bufMax ∧ (s.consumer.isSome = true → t.consumer.isSome = true)

section
variable {s t : State}

theorem KeepsWiring.of_eq (hb : t.bufMax = s.bufMax) (hc : t.consumer = s.consumer) : KeepsWiring s t :=
  ⟨hb, fun h => hc ▸ h⟩

theorem SameSurroundings.keepsWiring (h : SameSurroundings s t) : KeepsWiring s t :=
  .of_eq h.bufMax h.consumer

/-- Of the host's actions only a drive of `out_ready` and an attach set the consumer, and both leave one attached. -/
theorem hostEvent_keepsWiring {e : HostEvent} (h : hostEvent e s = .next t) : KeepsWiring s t := by
  cases e with
  | feed chunk => cases h; exact .of_eq rfl rfl
  | accept => cases h; split <;> exact .of_eq rfl rfl
  | ready level =>
    cases h
    split
    · exact ⟨rfl, fun _ => rfl⟩
    · exact .of_eq rfl rfl
  | attach =>
    cases h
    split
    · exact .of_eq rfl rfl
    · exact ⟨rfl, fun _ => rfl⟩
  | readStatus k => exact (exec_sameSurroundings (i := decodeAccessor k) h).keepsWiring
  | readRecord =>
    obtain ⟨r, _, _, rfl⟩ := readOutRecord_eq_next h
    exact .of_eq rfl rfl
  | rst => cases h; exact .of_eq rfl rfl

theorem hostTurn_keepsWiring (h : hostTurn s = .next t) : KeepsWiring s t := by
  obtain ⟨_, hs⟩ | ⟨a, es, _, hs⟩ := hostTurn_cases s
  · cases hs.symm.trans h; exact .of_eq rfl rfl
  · exact hostEvent_keepsWiring (s := s.setEvents es) (hs.symm.trans h)

/-- One event of the machine keeps the wiring: the host's turn, an acceptance, or a byte transaction. -/
theorem step_keepsWiring (h : step s = .next t) : KeepsWiring s t := by
  obtain ⟨_, hs⟩ | ⟨_, _, _, hs⟩ | ⟨_, _, b, rest, _, hs⟩ | ⟨_, _, hs⟩ := cycle_cases s
  · exact hostTurn_keepsWiring (hs.symm.trans h)
  · cases hs.symm.trans h; exact .of_eq rfl rfl
  · exact (byteTransaction_sameSurroundings (s := s.setInPort rest) (hs.symm.trans h)).keepsWiring
  · exact hostTurn_keepsWiring (hs.symm.trans h)

end

/-- Settles O49, over the kinds of event a step can be. -/
theorem bufferBoundIsFixedAtBuild : Obligations.BufferBoundIsFixedAtBuild :=
  fun _ _ h => step_keepsWiring h

end Sys2Proof.Machine
end

section
/-! PROOFS of the statements about the storage: the payload view of an accepted frame, the decode of the payload by
its field rows, and what a step does to the buffer. -/

namespace Sys2Proof.Machine

/-! ### The payload view (R14, R44) -/

/-- A read of `n` bytes at `o` shows the bytes of the sequence from `o` on (R14). -/
theorem getElem?_memRead_of_lt (p : List Byte) (o : Nat) {n i : Nat} (h : i < n) :
    (memRead p o n)[i]? = p[o + i]? := by
  rw [memRead, List.getElem?_take_of_lt h, List.getElem?_drop]

/-- A read of `n` bytes has no byte past them (R14). -/
theorem getElem?_memRead_of_le (p : List Byte) (o : Nat) {n i : Nat} (h : n ≤ i) : (memRead p o n)[i]? = none :=
  List.getElem?_eq_none ((memRead_length_le p o n).trans h)

/-- An accepted frame has the navigation length (R147). -/
theorem length_of_accepted {f : List Byte} (h : accepted f = true) : f.length = Config.navFrameLen := by
  simp only [accepted, Bool.and_eq_true, beq_iff_eq] at h
  obtain ⟨⟨⟨_, hlen⟩, _⟩, _⟩ := h
  exact hlen

/-- Settles O21: the payload is a read of 90 bytes at offset 2, and an accepted frame is long enough for it. -/
theorem payloadViewOfAnAcceptedFrame : Obligations.PayloadViewOfAnAcceptedFrame := by
  intro f hf
  have hlen : f.length = 93 := length_of_accepted hf
  refine ⟨hlen, memRead_length ?_, fun i hi => ?_, fun i hi => getElem?_memRead_of_le f 2 hi⟩
  · change 92 ≤ f.length
    omega
  · rw [Nat.add_comm i 2]
    exact getElem?_memRead_of_lt f 2 hi

/-! ### The field rows in any order (R50, R160, R195) -/

/-- `dst` with the listed fields taken from `src`. -/
def Record.overwrite (l : List Field) (src dst : Record) : Record where
  timeOfValidity := if .timeOfValidity ∈ l then src.timeOfValidity else dst.timeOfValidity
  latitudeDegrees := if .latitudeDegrees ∈ l then src.latitudeDegrees else dst.latitudeDegrees
  longitudeDegrees := if .longitudeDegrees ∈ l then src.longitudeDegrees else dst.longitudeDegrees
  depthMetres := if .depthMetres ∈ l then src.depthMetres else dst.depthMetres
  altitudeMetres := if .altitudeMetres ∈ l then src.altitudeMetres else dst.altitudeMetres
  rollDegrees := if .rollDegrees ∈ l then src.rollDegrees else dst.rollDegrees
  pitchDegrees := if .pitchDegrees ∈ l then src.pitchDegrees else dst.pitchDegrees
  headingDegrees := if .headingDegrees ∈ l then src.headingDegrees else dst.headingDegrees
  velocityNorth := if .velocityNorth ∈ l then src.velocityNorth else dst.velocityNorth
  velocityEast := if .velocityEast ∈ l then src.velocityEast else dst.velocityEast
  velocityDown := if .velocityDown ∈ l then src.velocityDown else dst.velocityDown
  angularRateFwd := if .angularRateFwd ∈ l then src.angularRateFwd else dst.angularRateFwd
  angularRateStarboard := if .angularRateStarboard ∈ l then src.angularRateStarboard else dst.angularRateStarboard
  angularRateDown := if .angularRateDown ∈ l then src.angularRateDown else dst.angularRateDown
  accelerationFwd := if .accelerationFwd ∈ l then src.accelerationFwd else dst.accelerationFwd
  accelerationStarboard := if .accelerationStarboard ∈ l then src.accelerationStarboard else dst.accelerationStarboard
  accelerationDown := if .accelerationDown ∈ l then src.accelerationDown else dst.accelerationDown
  errorEstimate0 := if .errorEstimate0 ∈ l then src.errorEstimate0 else dst.errorEstimate0
  errorEstimate1 := if .errorEstimate1 ∈ l then src.errorEstimate1 else dst.errorEstimate1
  errorEstimate2 := if .errorEstimate2 ∈ l then src.errorEstimate2 else dst.errorEstimate2
  errorEstimate3 := if .errorEstimate3 ∈ l then src.errorEstimate3 else dst.errorEstimate3
  errorEstimate4 := if .errorEstimate4 ∈ l then src.errorEstimate4 else dst.errorEstimate4
  errorEstimate5 := if .errorEstimate5 ∈ l then src.errorEstimate5 else dst.errorEstimate5
  errorEstimate6 := if .errorEstimate6 ∈ l then src.errorEstimate6 else dst.errorEstimate6
  errorEstimate7 := if .errorEstimate7 ∈ l then src.errorEstimate7 else dst.errorEstimate7
  errorEstimate8 := if .errorEstimate8 ∈ l then src.errorEstimate8 else dst.errorEstimate8
  errorEstimate9 := if .errorEstimate9 ∈ l then src.errorEstimate9 else dst.errorEstimate9
  errorEstimate10 := if .errorEstimate10 ∈ l then src.errorEstimate10 else dst.errorEstimate10
  statusFlags := if .statusFlags ∈ l then src.statusFlags else dst.statusFlags

namespace Record

variable (src dst : Record)

@[simp] theorem overwrite_nil : overwrite [] src dst = dst := by
  simp [overwrite]

/-- Fields taken from one source in two turns are taken from it at once. -/
@[simp] theorem overwrite_overwrite (l l' : List Field) :
    overwrite l src (overwrite l' src dst) = overwrite (l' ++ l) src dst := by
  simp only [overwrite, List.mem_append, or_comm (b := _ ∈ l), ite_or]

/-- With every field taken nothing of the old record is left. -/
theorem overwrite_of_forall_mem {l : List Field} (h : ∀ f, f ∈ l) : overwrite l src dst = src := by
  simp [overwrite, h]

end Record

/-- Every field is in the table of R72. -/
theorem mem_fieldAll (f : Field) : f ∈ Field.all := by
  cases f <;> decide

/-- The row of a field, on that field's payload bytes, writes the field of `decode(p)` and no other (R50, R160). -/
theorem exec_fieldInstr (f : Field) (p : List Byte) (s : State) :
    exec (fieldInstr f (fieldBytes f p)) s = .next (s.setWork (Record.overwrite [f] (decodePayload p) s.work)) := by
  cases f <;> rfl

/-- The rows of a list of fields write the listed fields of `decode(p)`, one after another. -/
theorem foldl_exec_fieldInstr (p : List Byte) (l : List Field) (s : State) :
    l.foldl (fun o f => andThen o (exec (fieldInstr f (fieldBytes f p)))) (.next s) =
      .next (s.setWork (Record.overwrite l (decodePayload p) s.work)) := by
  induction l generalizing s with
  | nil => rw [Record.overwrite_nil]; rfl
  | cons f fs ih =>
    rw [List.foldl_cons, andThen_next, exec_fieldInstr, ih]
    simp

/-- Settles O26: an order of the fields lists every field, so its rows leave nothing of the old record. -/
theorem fieldRowsInAnyOrderDecodeThePayload : Obligations.FieldRowsInAnyOrderDecodeThePayload := by
  intro p l s hperm
  have hall : ∀ f, f ∈ l := fun f => hperm.mem_iff.mpr (mem_fieldAll f)
  rw [foldl_exec_fieldInstr, Record.overwrite_of_forall_mem _ _ hall]
  rfl

/-! ### What a step does to the buffer (R42) -/

/-- The storage `m'` is `m`, or empty, or `m` with one byte appended: what one event may do (R42). -/
inductive StorageStep (m : Memory) : Memory → Prop where
  | keep : StorageStep m m
  | clear : StorageStep m []
  | append (b : Byte) : StorageStep m (appendByte m b)

/-- The rows of `Idle` leave the buffer alone (R103 to R106). -/
theorem exec_idle_buf {b : Byte} {s t : State} (h : exec (decodeStep (stepWord .idle b)) s = .next t) :
    t.buf = s.buf := by
  rw [decodeStep, stepWord_state, stepWord_byte, ofCode_code] at h
  cases hclass : classify b
  all_goals rw [hclass] at h; cases h; rfl

section
variable {s t : State}

theorem execNavAccept_buf {x : BitVec 6} (h : execNavAccept x s = .next t) : t.buf = s.buf := by
  by_cases hlen : s.frame.length - Config.frameOverhead = Config.navPayloadLen
  · cases (execNavAccept_of_length hlen).symm.trans h; rfl
  · rw [execNavAccept, if_neg hlen] at h
    cases h; rfl

/-- The parser reads the frame it is handed, never the buffer (R43). -/
theorem dispatch_buf {f : List Byte} (h : dispatch f s = .next t) : t.buf = s.buf := by
  obtain ⟨d, hd⟩ | ⟨d, hd⟩ | ⟨_, _, _, hd⟩ := dispatch_cases f s
  all_goals cases hd.symm.trans h; rfl

/-- A completed frame leaves the buffer empty (R117). -/
theorem execInframeescEnd_buf (h : execInframeescEnd s = .next t) : t.buf = [] := by
  obtain ⟨u, hu, ht⟩ := andThen_eq_next h
  cases ht
  exact dispatch_buf (t := u) hu

/-- Every row of the table keeps the buffer, clears it, or appends one byte. -/
theorem exec_storageStep {i : Instr} (h : exec i s = .next t) : StorageStep s.buf t.buf := by
  cases i
  case precheckOverflow =>
    obtain ⟨_, hs⟩ | ⟨_, hs⟩ := execPrecheckOverflow_cases s
    · cases hs.symm.trans h; exact .clear
    · cases hs.symm.trans h; exact .keep
  case inframeescEnd => exact execInframeescEnd_buf h ▸ .clear
  case navAccept x => exact execNavAccept_buf (x := x) h ▸ .keep
  case isset =>
    obtain ⟨r, _, _, rfl⟩ := execIsset_eq_next h
    exact .keep
  case escseenStart | escseenOther | inframeescStart | inframeescOther => cases h; exact .clear
  case inframeStart | inframeEnd | inframeOther | inframeescEsc => cases h; exact .append _
  all_goals cases h; exact .keep

/-- A byte transaction writes at most once: after a hard reset by the pre-check its byte is read in `Idle`, where no row
appends (R102). -/
theorem byteTransaction_storageStep {b : Byte} (h : byteTransaction b s = .next t) : StorageStep s.buf t.buf := by
  obtain ⟨u, hpre, hrow⟩ := andThen_eq_next h
  obtain ⟨v, hv, ht⟩ := andThen_eq_next hrow
  cases ht
  obtain ⟨_, hs⟩ | ⟨_, hs⟩ := execPrecheckOverflow_cases s
  · cases hs.symm.trans hpre
    have hempty : v.buf = [] := exec_idle_buf hv
    exact hempty ▸ .clear
  · cases hs.symm.trans hpre
    exact exec_storageStep (t := v) hv

/-- Of the host's actions only `rst` touches the buffer, and clears it (R250). -/
theorem hostEvent_storageStep {e : HostEvent} (h : hostEvent e s = .next t) : StorageStep s.buf t.buf := by
  cases e with
  | feed chunk => cases h; exact .keep
  | accept => cases h; split <;> exact .keep
  | ready level => cases h; split <;> exact .keep
  | attach => cases h; split <;> exact .keep
  | readStatus k => exact exec_storageStep (i := decodeAccessor k) h
  | readRecord =>
    obtain ⟨r, _, _, rfl⟩ := readOutRecord_eq_next h
    exact .keep
  | rst => cases h; exact .clear

theorem hostTurn_storageStep (h : hostTurn s = .next t) : StorageStep s.buf t.buf := by
  obtain ⟨_, hs⟩ | ⟨a, es, _, hs⟩ := hostTurn_cases s
  · cases hs.symm.trans h; exact .keep
  · exact hostEvent_storageStep (s := s.setEvents es) (hs.symm.trans h)

/-- One event of the machine: the host's turn, an acceptance, or a byte transaction. -/
theorem step_storageStep (h : step s = .next t) : StorageStep s.buf t.buf := by
  obtain ⟨_, hs⟩ | ⟨_, _, _, hs⟩ | ⟨_, _, b, rest, _, hs⟩ | ⟨_, _, hs⟩ := cycle_cases s
  · exact hostTurn_storageStep (hs.symm.trans h)
  · cases hs.symm.trans h; exact .keep
  · exact byteTransaction_storageStep (s := s.setInPort rest) (hs.symm.trans h)
  · exact hostTurn_storageStep (hs.symm.trans h)

end

/-- Settles O48, by the kinds of storage step; what the append writes and leaves is said by its read rules. -/
theorem bufferChangesOnlyByAppendAndClear : Obligations.BufferChangesOnlyByAppendAndClear := by
  intro s t h
  have hstep := step_storageStep h
  generalize t.buf = m at hstep ⊢
  cases hstep with
  | keep => exact .inl rfl
  | clear => exact .inr (.inl rfl)
  | append b =>
    exact .inr (.inr ⟨b, rfl, appendByte_length _ b, readByte_appendByte_length _ b,
      fun _ hi => readByte_appendByte_of_ne _ b hi⟩)

end Sys2Proof.Machine
end

section
/-! PROOFS of the statements about the encodings: the opcode map and its table, the frame header, the byte layout of
every row, the raw fields of a decoded payload, and the wire form of a frame. -/

namespace Sys2Proof.Machine

/-! ### Byte classes (R62) -/

/-- A byte is of class `O` exactly when it is no marker (R62). -/
theorem classify_eq_other_iff {b : Byte} :
    classify b = .other ↔ b ≠ Config.esc ∧ b ≠ Config.startMarker ∧ b ≠ Config.endMarker := by
  unfold classify
  split_ifs <;> simp_all

/-- The two tests for a byte of class `O` agree: the operand check and the classifier. -/
theorem otherByte_eq_true_iff {b : Byte} : otherByte b = true ↔ classify b = .other := by
  simp [otherByte, classify_eq_other_iff, and_assoc]

/-- The byte in a step row's `match`: the marker of the class, and 0 where the mask drops the byte (R63). -/
def matchByte : ByteClass → Byte
  | .escape => Config.esc
  | .start => Config.startMarker
  | .endMark => Config.endMarker
  | .other => 0#8

/-- A marker class holds one byte, its marker (R62). -/
theorem eq_matchByte_iff {c : ByteClass} (hc : c ≠ .other) {b : Byte} : b = matchByte c ↔ c = classify b := by
  constructor
  · rintro rfl
    cases c with
    | escape | start | endMark => rfl
    | other => exact absurd rfl hc
  · rintro rfl
    revert hc
    unfold classify
    split_ifs with he hs hn
    · exact fun _ => he
    · exact fun _ => hs
    · exact fun _ => hn
    · exact fun hc => absurd rfl hc

/-! ### Step words (R63) -/

/-- Every 10-bit word is the step word of its state bits and its byte (R63). -/
theorem stepWord_ofCode (w : BitVec 10) :
    stepWord (ParserState.ofCode (w.extractLsb' 8 2)) (w.extractLsb' 0 8) = w := by
  rw [stepWord, code_ofCode, BitVec.extractLsb'_append_extractLsb'_eq_extractLsb' (by decide)]
  exact BitVec.extractLsb'_eq_self

theorem stepWord_inj {p q : ParserState} {b c : Byte} : stepWord p b = stepWord q c ↔ p = q ∧ b = c := by
  constructor
  · intro h
    have hcode : p.code = q.code := by rw [← stepWord_state p b, h, stepWord_state]
    have hbyte : b = c := by rw [← stepWord_byte p b, h, stepWord_byte]
    exact ⟨by rw [← ofCode_code p, hcode, ofCode_code], hbyte⟩
  · rintro ⟨rfl, rfl⟩
    rfl

/-- The step word is the state times 256 plus the byte (R63). -/
theorem stepWord_toNat (p : ParserState) (b : Byte) : (stepWord p b).toNat = p.code.toNat * 256 + b.toNat := by
  rw [stepWord, BitVec.toNat_append, ← Nat.shiftLeft_add_eq_or_of_lt b.isLt, Nat.shiftLeft_eq]

/-- The class-O mask keeps the state and drops the byte (R63). -/
theorem stepWord_and_stateMask (p : ParserState) (b : Byte) : stepWord p b &&& 0x300#10 = stepWord p 0#8 := by
  change (p.code ++ b) &&& (BitVec.allOnes 2 ++ 0#8) = p.code ++ 0#8
  rw [BitVec.and_append, BitVec.and_allOnes, BitVec.and_zero]

/-! ### The opcode map and its table (R63, R64) -/

/-- The cell of the opcode map for a state and a class, of the word's byte (R64). -/
def opcodeMap : ParserState → ByteClass → Byte → Instr
  | .idle, .escape => fun _ => .idleEsc
  | .idle, .start => fun _ => .idleStart
  | .idle, .endMark => fun _ => .idleEnd
  | .idle, .other => .idleOther
  | .escapeSeen, .escape => fun _ => .escseenEsc
  | .escapeSeen, .start => fun _ => .escseenStart
  | .escapeSeen, .endMark => fun _ => .escseenEnd
  | .escapeSeen, .other => .escseenOther
  | .inFrame, .escape => fun _ => .inframeEsc
  | .inFrame, .start => fun _ => .inframeStart
  | .inFrame, .endMark => fun _ => .inframeEnd
  | .inFrame, .other => .inframeOther
  | .inFrameEscapeSeen, .escape => fun _ => .inframeescEsc
  | .inFrameEscapeSeen, .start => fun _ => .inframeescStart
  | .inFrameEscapeSeen, .endMark => fun _ => .inframeescEnd
  | .inFrameEscapeSeen, .other => .inframeescOther

/-- The decoder of a step word reads the opcode map at the state and the byte's class (R64). -/
theorem decodeStep_stepWord (p : ParserState) (b : Byte) : decodeStep (stepWord p b) = opcodeMap p (classify b) b := by
  rw [decodeStep, stepWord_state, stepWord_byte, ofCode_code]
  cases p <;> cases classify b <;> rfl

/-- A byte that is no marker selects the class-O row of its state (R64). -/
theorem decodeStep_stepWord_of_other (p : ParserState) {b : Byte} (he : b ≠ Config.esc) (hs : b ≠ Config.startMarker)
    (hn : b ≠ Config.endMarker) : decodeStep (stepWord p b) = opcodeMap p .other b := by
  rw [decodeStep_stepWord, classify_eq_other_iff.mpr ⟨he, hs, hn⟩]

/-- Settles O3, from the opcode map read at each state and class. -/
theorem everyStateAndByteSelectsItsRow : Obligations.EveryStateAndByteSelectsItsRow :=
  ⟨⟨rfl, rfl, rfl, fun _ => decodeStep_stepWord_of_other .idle⟩,
    ⟨rfl, rfl, rfl, fun _ => decodeStep_stepWord_of_other .escapeSeen⟩,
    ⟨rfl, rfl, rfl, fun _ => decodeStep_stepWord_of_other .inFrame⟩,
    ⟨rfl, rfl, rfl, fun _ => decodeStep_stepWord_of_other .inFrameEscapeSeen⟩,
    stepWord_toNat, fun _ => classify_eq_other_iff⟩

/-- The row of the step format for a state and a class (R63). -/
def stepRow (p : ParserState) (c : ByteClass) : StepRow where
  bits := stepWord p (matchByte c)
  mask := if c = .other then 0x300#10 else 0x3FF#10
  priority := if c = .other then 1 else 0
  instr := opcodeMap p c

/-- The table of the step format has one row for each state and class, and no other (R63). -/
theorem mem_stepRows_iff {r : StepRow} : r ∈ stepRows ↔ ∃ p c, r = stepRow p c := by
  have htable : stepRows = [ParserState.idle, .escapeSeen, .inFrame, .inFrameEscapeSeen].flatMap fun p =>
      [ByteClass.escape, .start, .endMark, .other].map (stepRow p) := rfl
  rw [htable]
  constructor
  · intro h
    obtain ⟨p, _, hp⟩ := List.mem_flatMap.mp h
    obtain ⟨c, _, hc⟩ := List.mem_map.mp hp
    exact ⟨p, c, hc.symm⟩
  · rintro ⟨p, c, rfl⟩
    refine List.mem_flatMap.mpr ⟨p, ?_, List.mem_map_of_mem ?_⟩
    · cases p <;> decide
    · cases c <;> decide

/-- A step word matches the rows of its own state for its byte's class and for class `O`, whose mask drops the byte. -/
theorem stepRow_matches_iff {p q : ParserState} {c : ByteClass} {b : Byte} :
    (stepRow q c).matches (stepWord p b) = true ↔ q = p ∧ (c = classify b ∨ c = .other) := by
  rw [StepRow.matches, beq_iff_eq]
  by_cases hc : c = .other
  · subst hc
    change stepWord p b &&& 0x300#10 = stepWord q 0#8 ↔ _
    simp [stepWord_and_stateMask, stepWord_inj, eq_comm]
  · have hmask : (stepRow q c).mask = BitVec.allOnes 10 := if_neg hc
    rw [hmask, BitVec.and_allOnes]
    change stepWord p b = stepWord q (matchByte c) ↔ _
    simp [stepWord_inj, eq_matchByte_iff hc, hc, eq_comm]

/-- Of the rows a word matches, the one of its byte's class has the least priority (R63). -/
theorem stepRow_classify_least {p q : ParserState} {c : ByteClass} {b : Byte}
    (h : (stepRow q c).matches (stepWord p b) = true) :
    (stepRow q c).bits = (stepRow p (classify b)).bits ∨
      (stepRow p (classify b)).priority < (stepRow q c).priority := by
  obtain ⟨rfl, rfl | rfl⟩ := stepRow_matches_iff.mp h
  · exact .inl rfl
  · by_cases hb : classify b = .other
    · exact .inl (by rw [hb])
    · exact .inr (by simp [stepRow, hb])

/-- What the opcode map answers for a byte and its class is a well-formed step row, and encodes to that state and byte. -/
theorem opcodeMap_classify (p : ParserState) (b : Byte) :
    (opcodeMap p (classify b) b).wf = true ∧ (opcodeMap p (classify b) b).site = .step ∧
      encode (opcodeMap p (classify b) b) = encodeStep p b := by
  by_cases hb : classify b = .other
  · have hwf : otherByte b = true := otherByte_eq_true_iff.mpr hb
    rw [hb]
    cases p <;> exact ⟨hwf, rfl, rfl⟩
  · have hmarker : b = matchByte (classify b) := (eq_matchByte_iff hb).mpr rfl
    generalize classify b = c at hb hmarker
    subst hmarker
    cases c with
    | escape | start | endMark => cases p <;> exact ⟨rfl, rfl, rfl⟩
    | other => exact absurd rfl hb

/-- Settles O4: a word is a step word, and its row is that of its state and its byte's class. -/
theorem stepRowsMatchUnderTheirMasks : Obligations.StepRowsMatchUnderTheirMasks := by
  intro w
  generalize hp : ParserState.ofCode (w.extractLsb' 8 2) = p
  generalize hb : w.extractLsb' 0 8 = b
  have hcode : w.extractLsb' 8 2 = p.code := by rw [← hp, code_ofCode]
  obtain rfl : stepWord p b = w := by rw [← hp, ← hb, stepWord_ofCode]
  rw [hcode, decodeStep_stepWord]
  refine ⟨⟨stepRow p (classify b), mem_stepRows_iff.mpr ⟨p, _, rfl⟩, stepRow_matches_iff.mpr ⟨rfl, .inl rfl⟩, ?_, rfl,
    ?_, ?_⟩, opcodeMap_classify p b⟩
  · intro q hq hmatch
    obtain ⟨p', c, rfl⟩ := mem_stepRows_iff.mp hq
    exact stepRow_classify_least hmatch
  · rw [← Bool.not_eq_true, otherByte_eq_true_iff]
    by_cases hc : classify b = .other <;> simp [stepRow, hc]
  · rw [otherByte_eq_true_iff]
    by_cases hc : classify b = .other <;> simp [stepRow, hc]

/-! ### The byte layout of a word (R63, R66, R72) -/

/-- The two bytes of a step word decode to the opcode map's row (R63). -/
theorem decode_encodeStep (p : ParserState) (b : Byte) :
    decode .step (encodeStep p b) = .ok (opcodeMap p (classify b) b) := by
  rw [← decodeStep_stepWord]
  cases p <;> rfl

/-- The two bytes of a header decode as that header (R66, R69). -/
theorem decode_encodeHeader (h : BitVec 16) : decode .header (encodeHeader h) = .ok (decodeHeader h) := by
  have hjoin : h.extractLsb' 8 8 ++ h.extractLsb' 0 8 = h :=
    (BitVec.extractLsb'_append_extractLsb'_eq_extractLsb' (by decide)).trans BitVec.extractLsb'_eq_self
  rw [encodeHeader, decode, hjoin]

/-- The flag index is read back from its byte (R210). -/
theorem decode_accessor_setWidth (k : BitVec 4) : decode .accessor [k.setWidth 8] = .ok (.isset k) := by
  have hlt : (k.setWidth 8).toNat < 16 := (BitVec.toNat_setWidth_of_le (by decide)).trans_lt k.isLt
  have hlow : (k.setWidth 8).extractLsb' 0 4 = k := by
    simpa [← BitVec.toNat_inj] using k.isLt
  rw [decode, if_pos hlt, decodeAccessor, hlow]

@[simp] theorem leBytes_length (n v : Nat) : (leBytes n v).length = n := by
  induction n generalizing v with
  | zero => rfl
  | succ n ih => rw [leBytes, List.length_cons, ih]

/-- Little-endian assembly reads back the bytes of a number (R13). -/
theorem le_leBytes (n v : Nat) : le (leBytes n v) = v % 256 ^ n := by
  induction n generalizing v with
  | zero => rw [pow_zero, Nat.mod_one]; rfl
  | succ n ih =>
    rw [leBytes, le, ih, BitVec.toNat_ofNat, pow_succ' 256 n]
    exact (Nat.mod_mul (a := 256)).symm

/-- A pattern of whole bytes is read back from its little-endian bytes (R73). -/
theorem ofNat_le_leBytes {w n : Nat} (hw : w = 8 * n) (v : BitVec w) : BitVec.ofNat w (le (leBytes n v.toNat)) = v := by
  subst hw
  have hv : v.toNat < 256 ^ n := v.isLt.trans_eq (pow_mul 2 8 n)
  rw [le_leBytes, Nat.mod_eq_of_lt hv, BitVec.ofNat_toNat, BitVec.setWidth_eq]

/-- As many bytes as the field is wide decode to the field's row (R72, R73). -/
theorem decode_field_of_length {f : Field} {bytes : List Byte} (h : bytes.length = f.width) :
    decode (.field f) bytes = .ok (fieldInstr f bytes) :=
  if_pos h

/-! ### The frame header (R68, R69) -/

/-- The masked comparison of a header is a comparison of its low 10 bits (R69). -/
theorem isNavHeader_iff {h : BitVec 16} : isNavHeader h = true ↔ h.toNat % 1024 = Config.navId := by
  rw [isNavHeader, beq_iff_eq, ← BitVec.toNat_inj, BitVec.toNat_and]
  exact Iff.of_eq (congrArg (· = 224) (Nat.and_two_pow_sub_one_eq_mod h.toNat 10))

theorem decodeHeader_of_nav {h : BitVec 16} (hid : h.toNat % 1024 = Config.navId) :
    decodeHeader h = .navAccept (headerIgnored h) :=
  if_pos (isNavHeader_iff.mpr hid)

theorem decodeHeader_of_not_nav {h : BitVec 16} (hid : h.toNat % 1024 ≠ Config.navId) : decodeHeader h = .hdrOther h :=
  if_neg (mt isNavHeader_iff.mp hid)

/-- The operand check of HDR.OTHER is the failed match of NAV.ACCEPT (R144). -/
theorem otherHeader_eq_true_iff {h : BitVec 16} : otherHeader h = true ↔ h.toNat % 1024 ≠ Config.navId := by
  have hnot : otherHeader h = !isNavHeader h := rfl
  rw [hnot, Bool.not_eq_true', ← Bool.not_eq_true, isNavHeader_iff]

/-- The header written for NAV.ACCEPT has the identifier 224 and keeps the six bits not interpreted (R67, R69). -/
theorem decodeHeader_append_nav (x : BitVec 6) : decodeHeader (x ++ 0x0E0#10) = .navAccept x := by
  have hid : (x ++ 0x0E0#10).toNat % 1024 = Config.navId := by
    rw [BitVec.toNat_append, ← Nat.shiftLeft_add_eq_or_of_lt (BitVec.isLt _), Nat.shiftLeft_eq]
    exact Nat.mul_add_mod_self_right _ _ _
  rw [decodeHeader_of_nav hid, headerIgnored, BitVec.extractLsb'_append_eq_left]

/-! ### Decode of encode -/

/-- Settles O5: each row by the layout of its site, with the operand that its check admits. -/
theorem decodeInvertsEncode : Obligations.DecodeInvertsEncode := by
  intro i hwf
  cases i
  case precheckOverflow => rfl
  case idleEsc | idleStart | idleEnd | escseenEsc | escseenStart | escseenEnd | inframeEsc | inframeStart | inframeEnd |
      inframeescEsc | inframeescStart | inframeescEnd =>
    exact decode_encodeStep _ _
  case idleOther b | escseenOther b | inframeOther b | inframeescOther b =>
    refine (decode_encodeStep _ b).trans ?_
    rw [otherByte_eq_true_iff.mp hwf]
    rfl
  case navAccept x => exact (decode_encodeHeader _).trans (congrArg _ (decodeHeader_append_nav x))
  case hdrOther h =>
    exact (decode_encodeHeader h).trans (congrArg _ (decodeHeader_of_not_nav (otherHeader_eq_true_iff.mp hwf)))
  case isset k => exact decode_accessor_setWidth k
  all_goals
    refine (decode_field_of_length (leBytes_length _ _)).trans ?_
    exact congrArg Except.ok (congrArg _ (ofNat_le_leBytes (by rfl) _))

/-- Settles O2, each written-out word by evaluation. -/
theorem tableWordsDecode : Obligations.TableWordsDecode :=
  ⟨rfl, rfl, rfl, rfl, rfl, rfl, rfl, rfl, rfl, rfl, rfl, rfl⟩

/-! ### The identifier of a frame (R68, R69, R143) -/

/-- The header of a frame is `f[0]` times 256 plus `f[1]` (R69). -/
theorem headerWord_toNat (f : List Byte) :
    (headerWord f).toNat = (f.getD 0 0#8).toNat * 256 + (f.getD 1 0#8).toNat := by
  rw [headerWord, BitVec.toNat_append, ← Nat.shiftLeft_add_eq_or_of_lt (BitVec.isLt _), Nat.shiftLeft_eq]

/-- The identifier is the two low bits of `f[0]` times 256 plus `f[1]` (R68). -/
theorem frameId_eq (f : List Byte) : frameId f = (f.getD 0 0#8).toNat % 4 * 256 + (f.getD 1 0#8).toNat := by
  rw [frameId, ← Nat.shiftLeft_add_eq_or_of_lt (BitVec.isLt _), Nat.shiftLeft_eq]
  exact congrArg (· * 256 + _) (Nat.and_two_pow_sub_one_eq_mod _ 2)

/-- The identifier is the low 10 bits of the header (R68, R69). -/
theorem frameId_eq_headerWord_mod (f : List Byte) : frameId f = (headerWord f).toNat % 1024 := by
  have hlow : (f.getD 1 0#8).toNat < 256 := (f.getD 1 0#8).isLt
  rw [frameId_eq, headerWord_toNat]
  omega

theorem decodeHeader_of_frameId {f : List Byte} (h : frameId f = Config.navId) :
    decodeHeader (headerWord f) = .navAccept (headerIgnored (headerWord f)) :=
  decodeHeader_of_nav (frameId_eq_headerWord_mod f ▸ h)

theorem decodeHeader_of_frameId_ne {f : List Byte} (h : frameId f ≠ Config.navId) :
    decodeHeader (headerWord f) = .hdrOther (headerWord f) :=
  decodeHeader_of_not_nav (frameId_eq_headerWord_mod f ▸ h)

/-- Settles O6: the identifier is the low 10 bits of the header, which are what the mask compares. -/
theorem headerIdentifierMatch : Obligations.HeaderIdentifierMatch := by
  refine ⟨fun f => ⟨?_, decodeHeader_of_frameId, decodeHeader_of_frameId_ne⟩, fun h0 h1 rest => ⟨?_, ?_⟩, rfl⟩
  · rw [frameId_eq_headerWord_mod]
    exact Nat.mod_lt _ (by decide)
  · exact headerWord_toNat (h0 :: h1 :: rest)
  · exact frameId_eq (h0 :: h1 :: rest)

/-! ### The raw fields of a decoded payload (R72, R73, R161 to R163) -/

/-- A pattern of whole bytes is the unsigned extraction: nothing is cut off (R73). -/
theorem pattern_toNat {w n : Nat} (hw : w = 8 * n) (p : List Byte) (o : Nat) :
    (pattern w p o n).toNat = extractU p o n := by
  subst hw
  have hlt : extractU p o n < 2 ^ (8 * n) := calc
    extractU p o n < 256 ^ (memRead p o n).length := le_lt _
    _ ≤ 256 ^ n := Nat.pow_le_pow_right (by decide) (memRead_length_le p o n)
    _ = 2 ^ (8 * n) := (pow_mul 2 8 n).symm
  rw [pattern, BitVec.toNat_ofNat, Nat.mod_eq_of_lt hlt]

/-- Every field of `decode(p)` is the little-endian number of its own bytes (R72, R195). -/
theorem bits_decodePayload (f : Field) (p : List Byte) : (decodePayload p).bits f = extractU p f.offset f.width := by
  cases f <;> exact pattern_toNat (by rfl) p _

/-- The kinds read in two's complement (R73). -/
def Kind.signed : Kind → Bool
  | .s16 | .s32 => true
  | .u16 | .u48 | .f32 => false

/-- The raw value of a field of `decode(p)` is the signed or the unsigned extraction at its offset and width (R73). -/
theorem fieldRaw_decodePayload (f : Field) (p : List Byte) :
    fieldRaw (decodePayload p) f =
      bif (fieldKind f).signed then extractS p f.offset f.width else (extractU p f.offset f.width : Int) := by
  rw [fieldRaw, bits_decodePayload]
  cases f <;> rfl

/-- Settles O29, from the raw value of each field by its row of the layout. -/
theorem rawFieldValuesOfADecodedPayload : Obligations.RawFieldValuesOfADecodedPayload := by
  intro p
  and_intros
  all_goals exact fieldRaw_decodePayload _ p

/-! ### A frame built with its checksum (R70, R76, R148) -/

@[simp] theorem xorAll_cons (b : Byte) (f : List Byte) : xorAll (b :: f) = b ^^^ xorAll f := rfl

@[simp] theorem xorAll_append (f g : List Byte) : xorAll (f ++ g) = xorAll f ^^^ xorAll g := by
  induction f with
  | nil => exact (BitVec.zero_xor).symm
  | cons b f ih => rw [List.cons_append, xorAll_cons, xorAll_cons, ih, BitVec.xor_assoc]

/-- The checksum makes the XOR of the whole frame 0 (R70). -/
theorem xorAll_checkedFrame (h0 h1 : Byte) (p : List Byte) : xorAll (checkedFrame h0 h1 p) = 0#8 := by
  rw [checkedFrame, xorAll_append]
  generalize xorAll (h0 :: h1 :: p) = x
  exact (congrArg (x ^^^ ·) BitVec.xor_zero).trans BitVec.xor_self

theorem checkedFrame_length (h0 h1 : Byte) (p : List Byte) :
    (checkedFrame h0 h1 p).length = p.length + Config.frameOverhead := by
  simp [checkedFrame, Config.frameOverhead]

/-- The payload view of a frame of the navigation length is the payload it was built from (R44). -/
theorem payload_checkedFrame (h0 h1 : Byte) {p : List Byte} (hp : p.length = Config.navPayloadLen) :
    payload (checkedFrame h0 h1 p) = p :=
  List.take_left' hp

/-- With its checksum right and a whole header, a frame is given to the row of its header (R140, R143). -/
theorem dispatch_eq_exec_decodeHeader {f : List Byte} (hx : xorAll f = 0#8) (hlen : 2 ≤ f.length) (s : State) :
    dispatch f s = exec (decodeHeader (headerWord f)) (s.setFrame f) := by
  rw [dispatch, if_neg (not_not.mpr hx), if_neg (Nat.not_lt.mpr hlen), decodeHeader]
  split <;> rfl

/-- A frame built with its checksum is given to the row of its header, whatever its payload. -/
theorem dispatch_checkedFrame (h0 h1 : Byte) (p : List Byte) (s : State) :
    dispatch (checkedFrame h0 h1 p) s =
      exec (decodeHeader (headerWord (checkedFrame h0 h1 p))) (s.setFrame (checkedFrame h0 h1 p)) :=
  dispatch_eq_exec_decodeHeader (xorAll_checkedFrame h0 h1 p) (by simp [checkedFrame]) s

/-- Under `E0` the identifier is 224 exactly when the two low bits of the first header byte are 0 (R68). -/
theorem frameId_checkedFrame_nav_iff {h0 : Byte} {p : List Byte} :
    frameId (checkedFrame h0 0xE0#8 p) = Config.navId ↔ h0.extractLsb' 0 2 = 0#2 := by
  have hlow : (h0.extractLsb' 0 2).toNat = h0.toNat % 4 := rfl
  have hid : frameId (checkedFrame h0 0xE0#8 p) = h0.toNat % 4 * 256 + 224 := frameId_eq _
  rw [hid, ← BitVec.toNat_inj, hlow]
  change _ * 256 + 224 = 224 ↔ _ = 0
  omega

/-- Settles O20: the checksum passes, and the identifier chooses between the accepting row and the discard. -/
theorem checkedNavigationFrameIsAccepted : Obligations.CheckedNavigationFrameIsAccepted := by
  intro h0 p hp
  have hpayload := payload_checkedFrame h0 0xE0#8 hp
  have hlen : (checkedFrame h0 0xE0#8 p).length = Config.navFrameLen := by rw [checkedFrame_length, hp]; rfl
  refine ⟨xorAll_checkedFrame _ _ _, hpayload, fun hid => ⟨?_, fun s => ?_⟩, fun hid s => ?_⟩
  · rw [accepted, xorAll_checkedFrame, hlen]
    simp [checkedFrame, hid]
  · rw [dispatch_checkedFrame, decodeHeader_of_frameId (frameId_checkedFrame_nav_iff.mpr hid), exec,
      execNavAccept_of_length (congrArg (· - Config.frameOverhead) hlen), State.setFrame_frame, hpayload]
  · rw [dispatch_checkedFrame, decodeHeader_of_frameId_ne (mt frameId_checkedFrame_nav_iff.mp hid)]
    rfl

/-! ### The wire form (R65, R71) -/

/-- The doubling adds one byte for each `ESC` (R65). -/
theorem escaped_length (f : List Byte) : (escaped f).length = f.length + f.count Config.esc := by
  induction f with
  | nil => rfl
  | cons b f ih =>
    by_cases hb : b = Config.esc
    · subst hb
      rw [escaped, if_pos rfl, List.count_cons_self, List.length_cons, List.length_cons, List.length_cons, ih]
      omega
    · rw [escaped, if_neg hb, List.count_cons_of_ne hb, List.length_cons, List.length_cons, ih]
      omega

/-- Settles O56: the four bytes of the two marker pairs stand around the doubled frame. -/
theorem wireLengthCountsDoubledEscapes : Obligations.WireLengthCountsDoubledEscapes := by
  intro f
  have hesc : (escaped f).length = f.length + f.count 0x10#8 := escaped_length f
  simp only [rawFrame, List.length_append, List.length_cons, List.length_nil, hesc]
  omega

end Sys2Proof.Machine
end

section
/-! PROOFS of the statements about the deframer's rows: the words and the meaning of each of them, and the completed
frame. -/

namespace Sys2Proof.Machine

/-! ### The two flags of `Idle` (R22) -/

@[simp] theorem inFrameFlag_idle : inFrameFlag .idle = false := rfl

@[simp] theorem escPendingFlag_idle : escPendingFlag .idle = false := rfl

/-! ### The word of a row (R63, R64) -/

theorem encodeStep_inj {p q : ParserState} {b c : Byte} : encodeStep p b = encodeStep q c ↔ p = q ∧ b = c := by
  cases p <;> cases q <;> simp [encodeStep, ParserState.code]

/-- What a step word decodes to is a well-formed row whose encoding is the word's state and byte. -/
theorem decodeStep_stepWord_wf_encode (p : ParserState) (b : Byte) :
    (decodeStep (stepWord p b)).wf = true ∧ encode (decodeStep (stepWord p b)) = encodeStep p b := by
  obtain ⟨hwf, _, henc⟩ := opcodeMap_classify p b
  rw [decodeStep_stepWord]
  exact ⟨hwf, henc⟩

/-- No two step words select the same row with the same operand: the row's encoding gives the word back. -/
theorem decodeStep_inj {v w : BitVec 10} : decodeStep v = decodeStep w ↔ v = w := by
  refine ⟨fun h => ?_, congrArg decodeStep⟩
  rw [← stepWord_ofCode v, ← stepWord_ofCode w] at h ⊢
  have henc := congrArg encode h
  rw [(decodeStep_stepWord_wf_encode _ _).2, (decodeStep_stepWord_wf_encode _ _).2, encodeStep_inj] at henc
  exact stepWord_inj.mpr henc

/-- The class-O row of a state, with its byte, is the row of that state and byte alone, and the byte is no marker. -/
theorem decodeStep_eq_other_iff (p : ParserState) {w : BitVec 10} {b : Byte} :
    decodeStep w = opcodeMap p .other b ↔ w = stepWord p b ∧ otherByte b = true := by
  have hwf : (opcodeMap p .other b).wf = otherByte b := by cases p <;> rfl
  have hrow (hb : otherByte b = true) : decodeStep (stepWord p b) = opcodeMap p .other b := by
    rw [decodeStep_stepWord, otherByte_eq_true_iff.mp hb]
  constructor
  · intro h
    have hb : otherByte b = true := by
      rw [← hwf, ← h, ← stepWord_ofCode w]
      exact (decodeStep_stepWord_wf_encode _ _).1
    exact ⟨decodeStep_inj.mp (h.trans (hrow hb).symm), hb⟩
  · rintro ⟨rfl, hb⟩
    exact hrow hb

/-! ### The meaning of each row (R102 to R118) -/

/-- Entering the state the block is in changes nothing. -/
theorem State.goto_eq_self {s : State} {p : ParserState} (h : s.parser = p) : s.goto p = s := by
  subst h; rfl

theorem exec_precheckOverflow_of_lt {s : State} (h : s.bufMax < s.buf.length) :
    exec .precheckOverflow s = .next (s.hardReset.discard .overflow) :=
  if_pos h

theorem exec_precheckOverflow_of_le {s : State} (h : s.buf.length ≤ s.bufMax) : exec .precheckOverflow s = .next s :=
  if_neg (Nat.not_lt.mpr h)

/-- Below the bound a byte transaction is the row that the state and the byte select (R101). -/
theorem byteTransaction_of_le {s : State} (b : Byte) (h : s.buf.length ≤ s.bufMax) :
    byteTransaction b s = andThen (exec (opcodeMap s.parser (classify b) b) s) fun t => .next t.nextByte := by
  rw [byteTransaction, exec_precheckOverflow_of_le h, andThen_next, decodeStep_stepWord]

/-- Above the bound the same byte is evaluated in `Idle`, after the hard reset and its label (R102, D3). -/
theorem byteTransaction_of_lt {s : State} (b : Byte) (h : s.bufMax < s.buf.length) :
    byteTransaction b s = byteTransaction b (s.hardReset.discard .overflow) := by
  have hroom : (s.hardReset.discard .overflow).buf.length ≤ (s.hardReset.discard .overflow).bufMax := Nat.zero_le _
  rw [byteTransaction, exec_precheckOverflow_of_lt h, andThen_next, byteTransaction_of_le b hroom, decodeStep_stepWord]

/-- A byte that is not `ESC` does nothing in `Idle` (R104 to R106). -/
theorem exec_idle_of_ne_esc {b : Byte} (hb : b ≠ Config.esc) (s : State) :
    exec (opcodeMap .idle (classify b) b) s = .next s := by
  cases hc : classify b with
  | escape => exact absurd ((eq_matchByte_iff (by decide)).mpr hc.symm) hb
  | start | endMark | other => rfl

/-- A byte that is not `ESC` is appended in `InFrame` (R112 to R114). -/
theorem exec_inFrame_of_ne_esc {b : Byte} (hb : b ≠ Config.esc) (s : State) :
    exec (opcodeMap .inFrame (classify b) b) s = .next (s.append b) := by
  cases hc : classify b with
  | escape => exact absurd ((eq_matchByte_iff (by decide)).mpr hc.symm) hb
  | start | endMark =>
    have hmarker := (eq_matchByte_iff (by decide)).mpr hc.symm
    subst hmarker
    rfl
  | other => rfl

/-! ### A completed frame (R117, R140 to R147) -/

/-- An accepted frame is one that passes every stage of the parser (R147). -/
theorem accepted_iff {f : List Byte} :
    accepted f = true ↔ xorAll f = 0#8 ∧ f.length = Config.navFrameLen ∧ frameId f = Config.navId := by
  have hid : frameId f = Config.navId ↔ (f.getD 0 0#8).extractLsb' 0 2 = 0#2 ∧ f.getD 1 0#8 = 0xE0#8 := by
    have hbits : ((f.getD 0 0#8).extractLsb' 0 2).toNat = (f.getD 0 0#8).toNat % 4 := rfl
    have hlow : (f.getD 1 0#8).toNat < 256 := (f.getD 1 0#8).isLt
    rw [frameId_eq, ← BitVec.toNat_inj, ← BitVec.toNat_inj, hbits]
    change _ * 256 + _ = 224 ↔ _ = 0 ∧ _ = 224
    omega
  rw [hid]
  simp [accepted, and_assoc]

/-- The label of a frame that is not accepted: its first failing stage (R140). -/
def discardReason (f : List Byte) : Discard :=
  if xorAll f ≠ 0#8 then .checksum
  else if f.length < 2 then .length
  else if frameId f ≠ 224 then .ident
  else .length

/-- The parser hands an accepted frame's decoded payload out (R146). -/
theorem dispatch_of_accepted {f : List Byte} (hf : accepted f = true) (s : State) :
    dispatch f s = .next (((s.setFrame f).setWork (decodePayload (payload f))).emit (decodePayload (payload f))) := by
  obtain ⟨hx, hlen, hid⟩ := accepted_iff.mp hf
  rw [dispatch_eq_exec_decodeHeader hx (hlen ▸ by decide), decodeHeader_of_frameId hid]
  exact execNavAccept_of_length (x := headerIgnored (headerWord f)) (s := s.setFrame f)
    (congrArg (· - Config.frameOverhead) hlen)

/-- The parser labels any other frame with its first failing stage, and hands nothing out. -/
theorem dispatch_of_not_accepted {f : List Byte} (hf : ¬ accepted f = true) (s : State) :
    (andThen (dispatch f s) fun t => .next t.endDispatch) = .next (s.discard (discardReason f)).endDispatch := by
  unfold discardReason
  split_ifs with hx hshort hid
  · rw [dispatch, if_pos hx]
    rfl
  · rw [dispatch, if_neg hx, if_pos hshort]
    rfl
  all_goals rw [dispatch_eq_exec_decodeHeader (not_not.mp hx) (Nat.not_lt.mp hshort)]
  · rw [decodeHeader_of_frameId_ne hid]
    rfl
  · have hlen : f.length - Config.frameOverhead ≠ Config.navPayloadLen := fun hlen => by
      have hnav : f.length = 93 := by
        simp only [Config.frameOverhead, Config.navPayloadLen] at hlen
        omega
      exact hf (accepted_iff.mpr ⟨not_not.mp hx, hnav, not_not.mp hid⟩)
    rw [decodeHeader_of_frameId (not_not.mp hid), exec, execNavAccept, State.setFrame_frame, if_neg hlen]
    rfl

/-- The state after `END` of `ESC END` in a frame (R117). -/
def State.complete (s : State) : State :=
  if accepted s.buf = true then (s.hardReset.emit (decodePayload (payload s.buf))).endDispatch
  else (s.hardReset.discard (discardReason s.buf)).endDispatch

theorem exec_inframeescEnd (s : State) : exec .inframeescEnd s = .next s.complete := by
  unfold State.complete
  split_ifs with hf
  · rw [exec, execInframeescEnd, dispatch_of_accepted hf]
    rfl
  · exact dispatch_of_not_accepted hf s.hardReset

/-- Settles O16: what the completing row leaves, with its two cases written out. -/
theorem completedFrameEmitsOrIsDiscarded : Obligations.CompletedFrameEmitsOrIsDiscarded :=
  exec_inframeescEnd

/-! ### The statements, row by row -/

/-- Settles O7, by the comparison of the pre-check; the invariant leaves one state with a full buffer. -/
theorem overflowPrecheckHardResets : Obligations.OverflowPrecheckHardResets := by
  refine ⟨fun s => exec_precheckOverflow_of_lt, fun s => exec_precheckOverflow_of_le, fun s b h => ?_,
    fun s hinv h => ?_⟩
  · rw [byteTransaction, exec_precheckOverflow_of_lt h]
    rfl
  · obtain ⟨_, hwf, hfull, _⟩ := hinv
    have hle : s.buf.length ≤ s.bufMax + 1 := of_decide_eq_true hwf
    exact hfull (by omega)

/-- Settles O8: each word by the injectivity of the decoder, each row by its one update. -/
theorem escapeMarkerSetsEscapePending : Obligations.EscapeMarkerSetsEscapePending :=
  ⟨fun _ => decodeStep_inj (w := 0x010#10), fun _ => rfl, rfl, rfl,
    fun _ => decodeStep_inj (w := 0x210#10), fun _ => rfl, rfl, rfl⟩

/-- Settles O9: each word by the injectivity of the decoder; the rows are the identity. -/
theorem bytesOutsideAFrameAreIgnored : Obligations.BytesOutsideAFrameAreIgnored :=
  ⟨fun _ => decodeStep_inj (w := 0x002#10), fun _ => rfl, fun _ => decodeStep_inj (w := 0x003#10), fun _ => rfl,
    fun _ _ => decodeStep_eq_other_iff .idle, fun _ _ => rfl⟩

/-- Settles O10: in each pair of `ESC` bytes the second goes back to the state before the first. -/
theorem pendingEscapeOutsideFrameIsDropped : Obligations.PendingEscapeOutsideFrameIsDropped :=
  ⟨fun _ => decodeStep_inj (w := 0x110#10), fun _ => rfl, fun _ hp => congrArg _ (State.goto_eq_self hp),
    fun _ hp => congrArg _ (State.goto_eq_self hp), fun _ => decodeStep_inj (w := 0x103#10), fun _ => rfl, rfl, rfl⟩

/-- Of the rows outside a frame only ESCSEEN.START leaves the block in one (R108). -/
theorem exec_opcodeMap_enters_frame {s t : State} {c : ByteClass} {b : Byte} (hs : inFrameFlag s.parser = false)
    (h : exec (opcodeMap s.parser c b) s = .next t) (ht : inFrameFlag t.parser = true) :
    s.parser = .escapeSeen ∧ c = .start := by
  cases hp : s.parser with
  | idle => rw [hp] at h; cases c <;> cases h <;> simp [hp, inFrameFlag, ParserState.code] at ht
  | escapeSeen => rw [hp] at h; cases c <;> cases h <;> simp [inFrameFlag, ParserState.code] at ht ⊢
  | inFrame | inFrameEscapeSeen => rw [hp] at hs; cases hs

/-- Settles O11: after a firing pre-check the byte is read in `Idle`, where no row enters a frame. -/
theorem escapeStartOpensAFrame : Obligations.EscapeStartOpensAFrame := by
  refine ⟨fun w => decodeStep_inj (w := 0x102#10), fun s => rfl, fun b s t hs h ht => ?_⟩
  by_cases hlen : s.bufMax < s.buf.length
  · rw [byteTransaction_of_lt b hlen, byteTransaction_of_le b (Nat.zero_le _)] at h
    obtain ⟨u, hu, hnext⟩ := andThen_eq_next h
    cases hnext
    cases (exec_opcodeMap_enters_frame (s := s.hardReset.discard .overflow) inFrameFlag_idle hu ht).1
  · rw [byteTransaction_of_le b (Nat.not_lt.mp hlen)] at h
    obtain ⟨u, hu, hnext⟩ := andThen_eq_next h
    cases hnext
    obtain ⟨hp, hc⟩ := exec_opcodeMap_enters_frame hs hu ht
    exact ⟨hp, (eq_matchByte_iff (c := .start) (by decide)).mpr hc.symm⟩

/-- Settles O12: both class-O rows after an `ESC`, by their words and their one meaning. -/
theorem escapeThenOtherByteIsAFramingError : Obligations.EscapeThenOtherByteIsAFramingError :=
  ⟨fun _ _ => decodeStep_eq_other_iff .escapeSeen, fun _ _ => rfl,
    fun _ _ => decodeStep_eq_other_iff .inFrameEscapeSeen, fun _ _ => rfl, rfl, rfl⟩

/-- An append to a buffer at its bound makes the next pre-check fire (R102). -/
theorem precheck_fires_of_append_at_bound {s t : State} {b : Byte} (hs : s.buf.length = s.bufMax)
    (hbuf : t.buf = appendByte s.buf b) (hmax : t.bufMax = s.bufMax) :
    exec .precheckOverflow t = .next (t.hardReset.discard .overflow) :=
  exec_precheckOverflow_of_lt (by rw [hbuf, hmax, appendByte_length, hs]; exact Nat.lt_succ_self _)

/-- The append writes one index of the buffer and leaves every other (R42). -/
theorem append_reads (s : State) (b : Byte) : readByte (s.append b).buf s.buf.length = some b ∧
    ∀ i, i ≠ s.buf.length → readByte (s.append b).buf i = readByte s.buf i :=
  ⟨readByte_appendByte_length s.buf b, fun _ => readByte_appendByte_of_ne s.buf b⟩

/-- Settles O13: each of the three rows is the append, whose read rules say the rest. -/
theorem literalBytesInFrameAreAppended : Obligations.LiteralBytesInFrameAreAppended := by
  refine ⟨fun w => decodeStep_inj (w := 0x202#10), fun s => ⟨_, rfl, rfl, append_reads s _⟩,
    fun w => decodeStep_inj (w := 0x203#10), fun s => ⟨_, rfl, rfl, append_reads s _⟩,
    fun w b => decodeStep_eq_other_iff .inFrame, fun b s => ⟨_, rfl, rfl, append_reads s b⟩,
    fun s b hs => ⟨?_, precheck_fires_of_append_at_bound hs rfl rfl⟩⟩
  rw [State.append_buf, appendByte_length, hs]
  exact Nat.lt_succ_self _

/-- Settles O14: the row is the append of one `ESC`, and the entry into `InFrame`. -/
theorem doubledEscapeAppendsOneEscape : Obligations.DoubledEscapeAppendsOneEscape := by
  refine ⟨fun w => decodeStep_inj (w := 0x310#10), fun s => ?_, rfl, rfl⟩
  obtain ⟨hread, hkeep⟩ := append_reads s Config.esc
  exact ⟨_, rfl, rfl, hread, hkeep, fun hs => precheck_fires_of_append_at_bound hs rfl rfl⟩

/-- Settles O15: a buffer of exactly the bound passes the pre-check. -/
theorem escapeStartInsideAFrameRestarts : Obligations.EscapeStartInsideAFrameRestarts := by
  refine ⟨fun w => decodeStep_inj (w := 0x302#10), fun s => rfl, fun s hp hlen => ?_, rfl, rfl⟩
  rw [byteTransaction_of_le _ hlen.le, hp]
  rfl

end Sys2Proof.Machine
end

section
/-! PROOFS of the statements about one event: which event a step is, what the host can do while a record is pending, and
what a byte transaction reads of the buffer. -/

namespace Sys2Proof.Machine

/-! ### Which event a step is (R231, log 4) -/

section
variable {s : State}

/-- Neither an acceptance nor a byte is possible: a record is pending and not taken, or no byte is presented. -/
def State.Stalled (s : State) : Prop :=
  s.outPending = true ∧ s.outReady = false ∨ s.outPending = false ∧ s.inPort = []

theorem step_of_hostFirst (h : s.hostFirst = true) : step s = hostTurn s :=
  if_pos h

theorem step_of_outReady (hf : s.hostFirst = false) (hp : s.outPending = true) (hr : s.outReady = true) :
    step s = .next s.accept := by
  simp [step, cycle, hf, hp, hr]

theorem step_of_byte {b : Byte} {rest : List Byte} (hf : s.hostFirst = false) (hp : s.outPending = false)
    (hport : s.inPort = b :: rest) : step s = byteTransaction b (s.setInPort rest) := by
  simp [step, cycle, offered, hf, hp, hport]

/-- In a stalled block the next event is the host's, whether or not its action comes first. -/
theorem step_of_stalled (h : s.Stalled) : step s = hostTurn s := by
  obtain ⟨hp, hr⟩ | ⟨hp, hport⟩ := h
  · simp [step, cycle, offered, hp, hr]
  · simp [step, cycle, offered, hp, hport]

theorem hostTurn_of_cons {a : HostAction} {es : List HostAction} (h : s.events = a :: es) :
    hostTurn s = hostEvent a.event (s.setEvents es) := by
  simp [hostTurn, h]

/-- The host's next action is the step when it comes first, or when nothing else is possible. -/
theorem step_of_hostAction {a : HostAction} {es : List HostAction}
    (h : a.first = true ∧ s.acceptsAtOnce = false ∨ s.Stalled) (he : s.events = a :: es) :
    step s = hostEvent a.event (s.setEvents es) := by
  rw [← hostTurn_of_cons he]
  obtain ⟨hfirst, hacc⟩ | hstalled := h
  · exact step_of_hostFirst (by rw [hostFirst_of_cons he, hfirst, hacc]; rfl)
  · exact step_of_stalled hstalled

end

/-- Settles O40, by the kinds of event a step can be. -/
theorem stepRunsTheDecodedRow : Obligations.StepRunsTheDecodedRow := by
  refine ⟨fun s b rest hf hp hport hlen => ?_, fun s b rest hf hp hport hlen => ?_,
    fun s first k es h => step_of_hostAction h, fun s first es h => step_of_hostAction h⟩
  · rw [step_of_byte hf hp hport, byteTransaction_of_le (s := s.setInPort rest) b hlen, decodeStep_stepWord]
    rfl
  · rw [step_of_byte hf hp hport, byteTransaction]
    change andThen _ _ = andThen (exec .precheckOverflow (s.setInPort rest)) _
    rw [exec_precheckOverflow_of_lt (s := s.setInPort rest) hlen]
    rfl

/-! ### While a record is pending (R120, R232) -/

/-- What the host's action `e` may do to a block that takes no byte: bytes are presented behind those waiting, the
deframer moves only by `rst`, and a record still pending is the same. -/
structure ConsumesNothing (e : HostEvent) (s t : State) : Prop where
  port : ∃ chunk, t.inPort = s.inPort ++ chunk
  framer : e = .rst ∨ (t.parser = s.parser ∧ t.buf = s.buf ∧ t.byteIndex = s.byteIndex)
  record : t.outPending = true → t.outRecord = s.outRecord

/-- An event that leaves the input side and the record alone consumes nothing. -/
theorem ConsumesNothing.of_eq {e : HostEvent} {s t : State} (hport : t.inPort = s.inPort)
    (hparser : t.parser = s.parser) (hbuf : t.buf = s.buf) (hindex : t.byteIndex = s.byteIndex)
    (hrec : t.outRecord = s.outRecord) : ConsumesNothing e s t :=
  ⟨⟨[], by rw [hport, List.append_nil]⟩, .inr ⟨hparser, hbuf, hindex⟩, fun _ => hrec⟩

/-- No action of the host takes a byte from the port. -/
theorem hostEvent_consumesNothing {e : HostEvent} {s t : State} (h : hostEvent e s = .next t) :
    ConsumesNothing e s t := by
  cases e with
  | feed chunk => cases h; exact ⟨⟨chunk, rfl⟩, .inr ⟨rfl, rfl, rfl⟩, fun _ => rfl⟩
  | accept =>
    cases h
    split
    · exact ⟨⟨[], (List.append_nil _).symm⟩, .inr ⟨rfl, rfl, rfl⟩, fun hp => by cases hp⟩
    · exact .of_eq rfl rfl rfl rfl rfl
  | ready level => cases h; split <;> exact .of_eq rfl rfl rfl rfl rfl
  | attach => cases h; split <;> exact .of_eq rfl rfl rfl rfl rfl
  | readStatus k =>
    obtain ⟨r, _, _, rfl⟩ := execIsset_eq_next h
    exact .of_eq rfl rfl rfl rfl rfl
  | readRecord =>
    obtain ⟨r, _, _, rfl⟩ := readOutRecord_eq_next h
    exact .of_eq rfl rfl rfl rfl rfl
  | rst => cases h; exact ⟨⟨[], (List.append_nil _).symm⟩, .inl rfl, fun hp => by cases hp⟩

/-- Settles O45: with the record not taken the only event left is the host's. -/
theorem noByteIsConsumedWhileARecordIsPending : Obligations.NoByteIsConsumedWhileARecordIsPending := by
  intro s t hp hr h
  rw [step_of_stalled (.inl ⟨hp, hr⟩)] at h
  obtain ⟨hnil, hs⟩ | ⟨a, es, hcons, hs⟩ := hostTurn_cases s
  · cases hs.symm.trans h
    exact ⟨⟨[], (List.append_nil _).symm⟩, .inr ⟨rfl, rfl, rfl⟩, fun _ => rfl, fun _ => rfl⟩
  · obtain ⟨hport, hframer, hrecord⟩ := hostEvent_consumesNothing (hs.symm.trans h)
    refine ⟨hport, hframer.imp_left fun ha => ?_, fun hnil => ?_, hrecord⟩
    · rw [hcons, ← ha]; rfl
    · rw [hnil] at hcons; cases hcons

/-! ### What a byte transaction reads (R101, R126) -/

theorem opcodeMap_site (p : ParserState) (c : ByteClass) (b : Byte) : (opcodeMap p c b).site = .step := by
  cases p <;> cases c <;> rfl

/-- Two states agree in everything but the bytes of their buffers, which are equally many. -/
def SameButBytes (t t' : State) : Prop := t'.buf.length = t.buf.length ∧ { t' with buf := t.buf } = t

/-- A transition that does not complete a frame uses the length of the buffer and none of its bytes (R126). -/
theorem exec_sameButBytes {i : Instr} (hsite : i.site = .step) (hend : i ≠ .inframeescEnd) {s : State} {m : Memory}
    (hm : m.length = s.buf.length) :
    ∃ t t', exec i s = .next t ∧ exec i { s with buf := m } = .next t' ∧ SameButBytes t t' := by
  cases i
  case inframeescEnd => exact absurd rfl hend
  case inframeStart | inframeEnd | inframeOther | inframeescEsc =>
    exact ⟨_, _, rfl, rfl, by simp [hm], rfl⟩
  case idleEsc | idleStart | idleEnd | idleOther | escseenEsc | escseenEnd | inframeEsc =>
    exact ⟨_, _, rfl, rfl, hm, rfl⟩
  case escseenStart | escseenOther | inframeescStart | inframeescOther => exact ⟨_, _, rfl, rfl, rfl, rfl⟩
  all_goals cases hsite

/-- The completing row is selected by `END` after an `ESC` in a frame, and by no other state and byte (R64). -/
theorem opcodeMap_eq_inframeescEnd {p : ParserState} {b : Byte} (h : opcodeMap p (classify b) b = .inframeescEnd) :
    p = .inFrameEscapeSeen ∧ b = Config.endMarker :=
  stepWord_inj.mp (decodeStep_inj.mp ((decodeStep_stepWord p b).trans h))

/-- Settles O50: the pre-check compares the length, and clears the buffer when it fires; then one transition runs. -/
theorem deframerReadsOnlyTheBufferLength : Obligations.DeframerReadsOnlyTheBufferLength := by
  intro b s m hm hend
  by_cases hlen : s.bufMax < s.buf.length
  · rw [byteTransaction_of_lt b hlen, byteTransaction_of_lt (s := { s with buf := m }) b (hm ▸ hlen)]
    obtain ⟨t, _, ht, _⟩ := exec_sameButBytes (s := s.hardReset.discard .overflow) (m := [])
      (opcodeMap_site .idle (classify b) b) (fun h => by cases (opcodeMap_eq_inframeescEnd h).1) rfl
    have hstep : byteTransaction b (s.hardReset.discard .overflow) = .next t.nextByte := by
      rw [byteTransaction_of_le b (Nat.zero_le _)]
      exact congrArg (andThen · _) ht
    exact ⟨_, _, hstep, hstep, rfl, rfl⟩
  · have hle := Nat.not_lt.mp hlen
    obtain ⟨t, t', ht, ht', hbytes, hrest⟩ := exec_sameButBytes (s := s) (opcodeMap_site s.parser (classify b) b)
      (fun h => hend ⟨(opcodeMap_eq_inframeescEnd h).1, (opcodeMap_eq_inframeescEnd h).2, hle⟩) hm
    rw [byteTransaction_of_le b hle, byteTransaction_of_le (s := { s with buf := m }) b (hm ▸ hle)]
    exact ⟨t.nextByte, t'.nextByte, congrArg (andThen · _) ht, congrArg (andThen · _) ht', hbytes,
      congrArg State.nextByte hrest⟩

end Sys2Proof.Machine
end

section
/-! PROOFS of the statements about the wire form: a frame sent escaped between its markers is received as it was, also
after an oversized one. -/

namespace Sys2Proof.Machine

/-! ### Runs of several steps -/

theorem andThen_assoc (o : Host.Outcome State Fault Refusal) (j k : State → Host.Outcome State Fault Refusal) :
    andThen (andThen o j) k = andThen o fun s => andThen (j s) k := by
  cases o <;> rfl

/-- A run goes on from where its first steps end. -/
theorem steps_add {m : Nat} (n : Nat) {s t : State} (h : steps m s = .next t) : steps (m + n) s = steps n t := by
  induction m generalizing s with
  | zero => cases h; rw [Nat.zero_add]
  | succ m ih =>
    obtain ⟨u, hu, hrest⟩ := andThen_eq_next h
    rw [Nat.succ_add, steps, hu, andThen_next]
    exact ih hrest

theorem steps_succ (n : Nat) {s t : State} (h : step s = .next t) : steps (n + 1) s = steps n t := by
  rw [steps, h, andThen_next]

/-- Two states with the same next step have the same runs from there on. -/
theorem steps_congr {n : Nat} (hn : n ≠ 0) {s t : State} (h : step s = step t) : steps n s = steps n t := by
  obtain ⟨k, rfl⟩ := Nat.exists_eq_succ_of_ne_zero hn
  rw [steps, steps, h]

theorem steps_one (s : State) : steps 1 s = step s := by
  rw [steps]
  cases step s <;> rfl

/-! ### Bytes taken one after another (R101, R120) -/

/-- The next event is a byte transaction if a byte is presented. -/
structure Listening (s : State) : Prop where
  hostWaits : s.hostFirst = false
  notPending : s.outPending = false

section
variable {s : State} {b : Byte} {rest : List Byte}

/-- A step that takes a byte below the bound runs the row of the state and the byte (R101). -/
theorem step_of_row (h : Listening s) (hport : s.inPort = b :: rest) (hlen : s.buf.length ≤ s.bufMax) {t : State}
    (hrow : exec (opcodeMap s.parser (classify b) b) (s.setInPort rest) = .next t) : step s = .next t.nextByte := by
  rw [step_of_byte h.hostWaits h.notPending hport, byteTransaction_of_le (s := s.setInPort rest) b hlen]
  exact congrArg (andThen · _) hrow

/-- A step that takes a byte above the bound is the step of that byte after the hard reset (R102, D3). -/
theorem step_of_overflow (h : Listening s) (hport : s.inPort = b :: rest) (hlen : s.bufMax < s.buf.length) :
    step s = step (s.hardReset.discard .overflow) := by
  rw [step_of_byte h.hostWaits h.notPending hport, byteTransaction_of_lt (s := s.setInPort rest) b hlen]
  exact (step_of_byte (s := s.hardReset.discard .overflow) h.hostWaits h.notPending hport).symm

end

/-- `s` after the bytes before `rest`, `n` in number, with the parser state `p` and the buffer `m`. -/
def State.advance (s : State) (n : Nat) (rest : List Byte) (p : ParserState) (m : Memory) : State :=
  { s with parser := p, buf := m, inPort := rest, byteIndex := s.byteIndex + n }

section
variable {s : State} {rest : List Byte}

/-- A step below the bound whose row ends in state `p` with the buffer `m` and touches nothing else. -/
theorem step_advance {b : Byte} {p : ParserState} {m : Memory} (h : Listening s) (hport : s.inPort = b :: rest)
    (hlen : s.buf.length ≤ s.bufMax)
    (hrow : exec (opcodeMap s.parser (classify b) b) (s.setInPort rest) = .next (s.advance 0 rest p m)) :
    step s = .next (s.advance 1 rest p m) :=
  step_of_row h hport hlen hrow

theorem Listening.advance (h : Listening s) (n : Nat) (p : ParserState) (m : Memory) :
    Listening (s.advance n rest p m) :=
  ⟨h.hostWaits, h.notPending⟩

/-- Bytes that are not `ESC` pass over a block in `Idle` (R106). -/
theorem steps_ignored {js : List Byte} (h : Listening s) (hp : s.parser = .idle) (hlen : s.buf.length ≤ s.bufMax)
    (hjs : ∀ b ∈ js, b ≠ Config.esc) (hport : s.inPort = js ++ rest) :
    steps js.length s = .next (s.advance js.length rest .idle s.buf) := by
  induction js generalizing s with
  | nil => cases s; cases hp; cases hport; rfl
  | cons b js ih =>
    obtain ⟨hb, hjs⟩ := List.forall_mem_cons.mp hjs
    have hstep : step s = .next (s.advance 1 (js ++ rest) .idle s.buf) :=
      step_advance h hport hlen (by
        rw [hp, exec_idle_of_ne_esc hb, ← hp]
        rfl)
    rw [List.length_cons, steps_succ _ hstep, ih (h.advance ..) rfl hlen hjs rfl]
    simp [State.advance, Nat.add_assoc, Nat.add_comm 1]

/-- One byte of a frame on the wire, doubled if it is `ESC`, is appended once (R112 to R115). -/
theorem steps_escaped_singleton (b : Byte) (h : Listening s) (hp : s.parser = .inFrame)
    (hlen : s.buf.length ≤ s.bufMax) (hport : s.inPort = escaped [b] ++ rest) :
    steps (escaped [b]).length s = .next (s.advance (escaped [b]).length rest .inFrame (s.buf ++ [b])) := by
  by_cases hb : b = Config.esc
  · subst hb
    have hesc : step s = .next (s.advance 1 (Config.esc :: rest) .inFrameEscapeSeen s.buf) :=
      step_advance h hport hlen (by rw [hp]; rfl)
    have hlit : step (s.advance 1 (Config.esc :: rest) .inFrameEscapeSeen s.buf) =
        .next (s.advance 2 rest .inFrame (s.buf ++ [Config.esc])) :=
      step_advance (h.advance ..) rfl hlen rfl
    exact (steps_succ 1 hesc).trans ((steps_one _).trans hlit)
  · have hsingle : escaped [b] = [b] := if_neg hb
    rw [hsingle] at hport ⊢
    refine (steps_one s).trans (step_advance h hport hlen ?_)
    rw [hp, exec_inFrame_of_ne_esc hb, ← hp]
    rfl

theorem escaped_cons (b : Byte) (f : List Byte) : escaped (b :: f) = escaped [b] ++ escaped f := by
  by_cases hb : b = Config.esc <;> simp [escaped, hb]

/-- De-escape of escape: the wire form of a frame's bytes appends exactly those bytes, the last of them at the bound at
most (R65, R123). -/
theorem steps_escaped (f : List Byte) (h : Listening s) (hp : s.parser = .inFrame)
    (hlen : s.buf.length + f.length ≤ s.bufMax + 1) (hport : s.inPort = escaped f ++ rest) :
    steps (escaped f).length s = .next (s.advance (escaped f).length rest .inFrame (s.buf ++ f)) := by
  induction f generalizing s with
  | nil => cases s; cases hp; cases hport; simp [escaped, steps, State.advance]
  | cons b f ih =>
    rw [List.length_cons] at hlen
    rw [escaped_cons, List.append_assoc] at hport
    have hroom : (s.buf ++ [b]).length + f.length ≤ s.bufMax + 1 := by
      rw [List.length_append, List.length_singleton]; omega
    rw [escaped_cons, List.length_append, steps_add _ (steps_escaped_singleton b h hp (by omega) hport),
      ih (h.advance ..) rfl hroom rfl]
    simp [State.advance, Nat.add_assoc]

/-- Bytes that hold no `ESC` are their own wire form (R65). -/
theorem escaped_eq_self {f : List Byte} (hf : ∀ b ∈ f, b ≠ Config.esc) : escaped f = f := by
  induction f with
  | nil => rfl
  | cons b f ih =>
    obtain ⟨hb, hf⟩ := List.forall_mem_cons.mp hf
    rw [escaped, if_neg hb, ih hf]

/-! ### The wire form of a frame (R65, R124) -/

/-- `s` after `ESC START`: a frame is open with an empty buffer, with the label RESTART if one was open before. -/
def State.openFrame (s : State) (rest : List Byte) : State :=
  { s.advance 2 rest .inFrame [] with
    trace := s.trace ++ (if s.parser = .inFrame then [.label (s.byteIndex + 1) .restart] else []) }

/-- `ESC START` opens a frame, from `Idle` and from inside another (R108, R116). -/
theorem steps_open (h : Listening s) (hesc : escPendingFlag s.parser = false) (hlen : s.buf.length ≤ s.bufMax)
    (hport : s.inPort = Config.esc :: Config.startMarker :: rest) :
    steps 2 s = .next (s.openFrame rest) := by
  unfold State.openFrame
  cases hp : s.parser with
  | idle =>
    have hfirst : step s = .next (s.advance 1 (Config.startMarker :: rest) .escapeSeen s.buf) :=
      step_advance h hport hlen (by rw [hp]; rfl)
    rw [steps_succ 1 hfirst, steps_one, step_of_row (h.advance ..) rfl hlen rfl]
    simp [State.advance, State.goto, State.clearBuf, State.setInPort, State.nextByte]
  | inFrame =>
    have hfirst : step s = .next (s.advance 1 (Config.startMarker :: rest) .inFrameEscapeSeen s.buf) :=
      step_advance h hport hlen (by rw [hp]; rfl)
    rw [steps_succ 1 hfirst, steps_one, step_of_row (h.advance ..) rfl hlen rfl]
    rfl
  | escapeSeen | inFrameEscapeSeen => rw [hp] at hesc; cases hesc

/-- `ESC END` in a frame runs the parser on the buffer, in `Idle` with an empty buffer (R117). -/
theorem steps_close (h : Listening s) (hp : s.parser = .inFrame) (hlen : s.buf.length ≤ s.bufMax)
    (hport : s.inPort = Config.esc :: Config.endMarker :: rest) :
    steps 2 s = andThen (dispatch s.buf (s.advance 1 rest .idle [])) fun t => .next t.endDispatch.nextByte := by
  have hfirst : step s = .next (s.advance 1 (Config.endMarker :: rest) .inFrameEscapeSeen s.buf) :=
    step_advance h hport hlen (by rw [hp]; rfl)
  have hlast := h.advance (rest := Config.endMarker :: rest) 1 .inFrameEscapeSeen s.buf
  rw [steps_succ 1 hfirst, steps_one, step_of_byte hlast.hostWaits hlast.notPending rfl]
  exact (byteTransaction_of_le (s := s.advance 1 rest .inFrameEscapeSeen s.buf) _ hlen).trans (andThen_assoc _ _ _)

end

/-- Settles O52: `ESC START` opens the frame, the escaped bytes append exactly `f`, and `ESC END` hands it on. -/
theorem framingRoundTrip : Obligations.FramingRoundTrip := by
  intro f rest s hfirst hpend hesc hlen hf hport
  have hlisten : Listening s := ⟨hfirst, hpend⟩
  have hwire : (rawFrame f).length = 2 + ((escaped f).length + 2) := by
    simp only [rawFrame, List.length_append, List.length_cons, List.length_nil]
    omega
  have hopen := steps_open (rest := escaped f ++ Config.esc :: Config.endMarker :: rest) hlisten hesc hlen
    (by simpa [rawFrame] using hport)
  have hopened : Listening (s.openFrame (escaped f ++ Config.esc :: Config.endMarker :: rest)) := ⟨hfirst, hpend⟩
  have hroom : 0 + f.length ≤ s.bufMax + 1 := by omega
  have hbody := steps_escaped f hopened rfl hroom rfl
  have hclose := steps_close (rest := rest) (hopened.advance (escaped f).length _ _) rfl hf rfl
  have hindex : s.byteIndex + (2 + ((escaped f).length + 2) - 1) = s.byteIndex + 2 + (escaped f).length + 1 := by
    omega
  rw [hwire, steps_add _ hopen, steps_add _ hbody, hindex]
  exact hclose

/-! ### An oversized frame, then a valid one (R102, R125) -/

/-- Bytes with no `ESC` past the bound fill the buffer to one past it; the byte after that, in them or the first of
`next`, is read in `Idle` after the hard reset, where the rest of them is ignored. -/
theorem steps_oversized {junk next : List Byte} {n : Nat} {s : State} (h : Listening s) (hp : s.parser = .inFrame)
    (hlen : s.buf.length ≤ s.bufMax + 1) (hjunk : ∀ b ∈ junk, b ≠ Config.esc)
    (hover : s.bufMax < s.buf.length + junk.length) (hport : s.inPort = junk ++ next) (hnext : next ≠ [])
    (hn : n ≠ 0) :
    steps (junk.length + n) s = steps n ((s.advance junk.length next .idle []).observe
      (.label (s.byteIndex + (s.bufMax + 1 - s.buf.length)) .overflow)) := by
  obtain ⟨fill, drop, rfl, hfill⟩ : ∃ fill drop, junk = fill ++ drop ∧ fill.length = s.bufMax + 1 - s.buf.length :=
    ⟨junk.take _, junk.drop _, (List.take_append_drop _ _).symm, List.length_take_of_le (by omega)⟩
  obtain ⟨hfillEsc, hdropEsc⟩ := List.forall_mem_append.mp hjunk
  have hfilled := steps_escaped (rest := drop ++ next) fill h hp (by omega)
    (by rw [escaped_eq_self hfillEsc, hport, List.append_assoc])
  rw [escaped_eq_self hfillEsc] at hfilled
  have hfull := h.advance (rest := drop ++ next) fill.length .inFrame (s.buf ++ fill)
  have hreset : step (s.advance fill.length (drop ++ next) .inFrame (s.buf ++ fill)) =
      step ((s.advance fill.length (drop ++ next) .idle []).discard .overflow) := by
    obtain ⟨b, tail, htail⟩ := List.exists_cons_of_ne_nil (List.append_ne_nil_of_right_ne_nil drop hnext)
    refine step_of_overflow hfull htail ?_
    change s.bufMax < (s.buf ++ fill).length
    rw [List.length_append]
    omega
  have hignored := steps_ignored (s := (s.advance fill.length (drop ++ next) .idle []).discard .overflow)
    ⟨h.hostWaits, h.notPending⟩ rfl (Nat.zero_le _) hdropEsc rfl
  rw [List.length_append, Nat.add_assoc, steps_add _ hfilled, steps_congr (by omega) hreset, steps_add _ hignored,
    ← hfill]
  simp only [State.advance, State.discard, State.observe, Nat.add_assoc]

/-- Settles O54: after the oversized bytes the block is in `Idle` with an empty buffer, and receives the frame. -/
theorem overflowThenFrameGivesOneDecode : Obligations.OverflowThenFrameGivesOneDecode := by
  intro junk f rest s hinv hfirst hp hpend hjunk hover hmax hf hport
  obtain ⟨_, hwf, _, _, hframe, hwork⟩ := hinv
  have hlen : f.length ≤ s.bufMax := (length_of_accepted hf).trans_le hmax
  have hwire : (rawFrame f).length - 1 + 1 = (rawFrame f).length := rfl
  have hne : (rawFrame f).length ≠ 0 := Nat.succ_ne_zero _
  rw [List.append_assoc] at hport
  rw [steps_oversized ⟨hfirst, hpend⟩ hp (of_decide_eq_true hwf) hjunk hover hport (List.cons_ne_nil _ _) hne,
    framingRoundTrip f rest ((s.advance junk.length (rawFrame f ++ rest) .idle []).observe _) hfirst hpend
      escPendingFlag_idle (Nat.zero_le _) hlen rfl, dispatch_of_accepted hf]
  simp [State.advance, State.observe, State.setFrame, State.setWork, State.emit, Nat.add_assoc, hwire, hframe, hwork]

end Sys2Proof.Machine
end

section
/-! PROOFS of the statement about chunk boundaries. A run over one chunk and a run over the same bytes in two chunks are
kept side by side: the second has the first chunk's bytes presented and the other chunk to come, and the block does the
same in both until it can take no byte. -/

namespace Sys2Proof.Machine

/-! ### The host's side of a byte transaction -/

/-- `s` with other bytes presented and other host actions to come. -/
def State.withHost (s : State) (port : List Byte) (es : List HostAction) : State := (s.setInPort port).setEvents es

/-- A completed frame is handled the same whatever the host's side is. -/
theorem complete_withHost (s : State) (port : List Byte) (es : List HostAction) :
    (s.withHost port es).complete = s.complete.withHost port es := by
  rw [State.complete, State.complete, apply_ite (State.withHost · port es)]
  rfl

/-- The rows of a byte transaction complete, and neither read nor change what is presented and what the host does
next. -/
theorem exec_withHost {i : Instr} (hi : i = .precheckOverflow ∨ i.site = .step) (s : State) :
    ∃ t : State, ∀ port es, exec i (s.withHost port es) = .next (t.withHost port es) := by
  cases i
  case precheckOverflow =>
    by_cases hlen : s.bufMax < s.buf.length
    · exact ⟨s.hardReset.discard .overflow, fun port es => exec_precheckOverflow_of_lt (s := s.withHost port es) hlen⟩
    · exact ⟨s, fun port es => exec_precheckOverflow_of_le (s := s.withHost port es) (Nat.not_lt.mp hlen)⟩
  case inframeescEnd =>
    exact ⟨s.complete, fun port es => (exec_inframeescEnd _).trans (congrArg _ (complete_withHost s port es))⟩
  case idleEsc => exact ⟨s.goto .escapeSeen, fun _ _ => rfl⟩
  case inframeEsc => exact ⟨s.goto .inFrameEscapeSeen, fun _ _ => rfl⟩
  case idleStart | idleEnd | idleOther => exact ⟨s, fun _ _ => rfl⟩
  case escseenEsc | escseenEnd => exact ⟨s.goto .idle, fun _ _ => rfl⟩
  case escseenStart => exact ⟨s.clearBuf.goto .inFrame, fun _ _ => rfl⟩
  case escseenOther | inframeescOther => exact ⟨s.hardReset.discard .framingError, fun _ _ => rfl⟩
  case inframeStart | inframeEnd | inframeOther => exact ⟨s.append _, fun _ _ => rfl⟩
  case inframeescEsc => exact ⟨(s.append Config.esc).goto .inFrame, fun _ _ => rfl⟩
  case inframeescStart => exact ⟨(s.discard .restart).clearBuf.goto .inFrame, fun _ _ => rfl⟩
  all_goals simp [Instr.site] at hi

/-- A byte transaction completes, whatever stands behind its byte (R101, R126). -/
theorem byteTransaction_withHost (b : Byte) (s : State) :
    ∃ t : State, ∀ port es, byteTransaction b (s.withHost port es) = .next (t.withHost port es) := by
  obtain ⟨u, hpre⟩ := exec_withHost (.inl rfl) s
  obtain ⟨t, hrow⟩ := exec_withHost (.inr (opcodeMap_site u.parser (classify b) b)) u
  refine ⟨t.nextByte, fun port es => ?_⟩
  rw [byteTransaction, hpre, andThen_next, decodeStep_stepWord]
  exact congrArg (andThen · _) (hrow port es)

/-! ### Two runs that differ in a chunk boundary (R121) -/

/-- No action of the schedule comes before an acceptance or a byte by its own word. -/
def Waits (es : List HostAction) : Prop := ∀ a ∈ es.head?, a.first = false

theorem waits_cons {e : HostEvent} {es : List HostAction} : Waits (⟨false, e⟩ :: es) := by
  simp [Waits]

theorem hostFirst_of_waits {s : State} (h : Waits s.events) : s.hostFirst = false := by
  cases he : s.events with
  | nil => exact hostFirst_of_nil he
  | cons a es =>
    rw [hostFirst_of_cons he, h a (by rw [he]; rfl), Bool.false_and]

/-- While no record is pending, a schedule that does not come first waits by its own word. -/
theorem waits_of_hostFirst {s : State} (hp : s.outPending = false) (h : s.hostFirst = false) : Waits s.events := by
  intro a ha
  obtain ⟨es, he⟩ := List.head?_eq_some_iff.mp ha
  simpa [hostFirst_of_cons he, hp] using h

/-- The run over `a ++ b` presented and the run over `a` presented with `b` still to be fed reach one state, the second
one step later for the feed. -/
def ChunksMeet (a b : List Byte) (es : List HostAction) (s : State) : Prop :=
  ∃ n t, steps n (s.withHost (a ++ b) es) = .next t ∧
    steps (n + 1) (s.withHost a (⟨false, .feed b⟩ :: es)) = .next t ∧ t.events = es

section
variable {a b : List Byte} {es : List HostAction} {s : State}

/-- When the block can take no byte of `a` now, `b` is fed and the two runs stand at the same state. -/
theorem ChunksMeet.of_stalled (h : (s.withHost a (⟨false, .feed b⟩ :: es)).Stalled) : ChunksMeet a b es s :=
  ⟨0, s.withHost (a ++ b) es, rfl, (steps_one _).trans (step_of_hostAction (.inr h) rfl), rfl⟩

/-- The two runs meet when they meet after the same step of both. -/
theorem ChunksMeet.of_step {a' : List Byte} {t : State}
    (h : step (s.withHost (a ++ b) es) = .next (t.withHost (a' ++ b) es))
    (h' : step (s.withHost a (⟨false, .feed b⟩ :: es)) = .next (t.withHost a' (⟨false, .feed b⟩ :: es)))
    (hmeet : ChunksMeet a' b es t) : ChunksMeet a b es s := by
  obtain ⟨n, u, hn, hn', hu⟩ := hmeet
  exact ⟨n + 1, u, (steps_succ n h).trans hn, (steps_succ (n + 1) h').trans hn', hu⟩

/-- A pending record is accepted in both runs or holds both back. -/
theorem ChunksMeet.of_notPending (hes : Waits es) (h : ∀ u : State, u.outPending = false → ChunksMeet a b es u)
    (s : State) : ChunksMeet a b es s := by
  cases hp : s.outPending with
  | false => exact h s hp
  | true =>
    cases hr : s.outReady with
    | false => exact .of_stalled (.inl ⟨hp, hr⟩)
    | true =>
      have haccept (port : List Byte) {es' : List HostAction} (hw : Waits es') :
          step (s.withHost port es') = .next (s.accept.withHost port es') :=
        step_of_outReady (s := s.withHost port es') (hostFirst_of_waits hw) hp hr
      exact .of_step (haccept _ hes) (haccept _ waits_cons) (h s.accept rfl)

/-- The two runs meet from every state: the block takes the bytes of `a` in both, one after another, until it stalls. -/
theorem chunksMeet (hes : Waits es) (s : State) : ChunksMeet a b es s := by
  induction a generalizing s with
  | nil => exact .of_notPending hes (fun u hu => .of_stalled (.inr ⟨hu, rfl⟩)) s
  | cons x a ih =>
    refine .of_notPending hes (fun u hu => ?_) s
    obtain ⟨t, ht⟩ := byteTransaction_withHost x u
    have htake (port : List Byte) {es' : List HostAction} (hw : Waits es') :
        step (u.withHost (x :: port) es') = .next (t.withHost port es') :=
      (step_of_byte (s := u.withHost (x :: port) es') (hostFirst_of_waits hw) hu rfl).trans (ht port es')
    exact .of_step (htake _ hes) (htake _ waits_cons) (ih t)

end

/-- Settles O55: the first feed is the first step of both runs; then `b` comes first, or waits while the block takes
`a`. -/
theorem chunkBoundariesHaveNoEffect : Obligations.ChunkBoundariesHaveNoEffect := by
  intro a b u v es s hp hport hfirst
  have hes : Waits es := waits_of_hostFirst (s := { s with events := es }) hp hfirst
  have hfeed (c : List Byte) (es' : List HostAction) :
      step { s with events := ⟨u, .feed c⟩ :: es' } = .next (s.withHost c es') := by
    have hstalled : State.Stalled { s with events := ⟨u, .feed c⟩ :: es' } := .inr ⟨hp, hport⟩
    rw [step_of_hostAction (.inr hstalled) rfl]
    simp [hostEvent, State.present, State.withHost, State.setInPort, State.setEvents, hport]
  cases v with
  | true =>
    have hearly : (s.withHost a (⟨true, .feed b⟩ :: es)).acceptsAtOnce = false := by
      rw [acceptsAtOnce_eq, State.withHost, State.setEvents_outPending, State.setInPort_outPending, hp, Bool.false_and]
    have hsecond : step (s.withHost a (⟨true, .feed b⟩ :: es)) = .next (s.withHost (a ++ b) es) :=
      step_of_hostAction (.inl ⟨rfl, hearly⟩) rfl
    exact ⟨0, s.withHost (a ++ b) es, (steps_one _).trans (hfeed _ _),
      (steps_succ 1 (hfeed _ _)).trans ((steps_one _).trans hsecond), rfl⟩
  | false =>
    obtain ⟨n, t, hn, hn', ht⟩ := chunksMeet (a := a) (b := b) hes s
    exact ⟨n, t, (steps_succ n (hfeed _ _)).trans hn, (steps_succ (n + 1) (hfeed _ _)).trans hn', ht⟩

end Sys2Proof.Machine
end

section
/-! PROOFS of the statements about the frame parser: the stage at which a frame leaves it, the two header rows, and the
error detection of the checksum. -/

namespace Sys2Proof.Machine

/-! ### The checksum stage (R141, R142) -/

theorem dispatch_of_xorAll_ne {f : List Byte} (hx : xorAll f ≠ 0#8) (s : State) :
    dispatch f s = .next (s.discard .checksum) :=
  if_pos hx

theorem dispatch_of_short {f : List Byte} (hx : xorAll f = 0#8) (hlen : f.length < 2) (s : State) :
    dispatch f s = .next (s.discard .length) := by
  rw [dispatch, if_neg (not_not.mpr hx), if_pos hlen]

theorem not_accepted_of_xorAll_ne {f : List Byte} (hx : xorAll f ≠ 0#8) : accepted f = false :=
  Bool.eq_false_iff.mpr fun hf => hx (accepted_iff.mp hf).1

/-! ### The header rows (R143 to R146) -/

/-- The length stage passes frames of 93 bytes alone: the subtraction of the overhead cuts nothing off there (R145). -/
theorem sub_frameOverhead_eq_navPayloadLen_iff {n : Nat} : n - Config.frameOverhead = Config.navPayloadLen ↔ n = 93 := by
  rw [Config.frameOverhead, Config.navPayloadLen]
  omega

theorem exec_navAccept_of_length {x : BitVec 6} {s : State} (hlen : s.frame.length = 93) :
    exec (.navAccept x) s =
      .next ((s.setWork (decodePayload (payload s.frame))).emit (decodePayload (payload s.frame))) :=
  execNavAccept_of_length (x := x) (sub_frameOverhead_eq_navPayloadLen_iff.mpr hlen)

theorem exec_navAccept_of_length_ne {x : BitVec 6} {s : State} (hlen : s.frame.length ≠ 93) :
    exec (.navAccept x) s = .next (s.discard .length) :=
  if_neg (mt sub_frameOverhead_eq_navPayloadLen_iff.mp hlen)

theorem exec_hdrOther (h : BitVec 16) (s : State) : exec (.hdrOther h) s = .next (s.discard .ident) := rfl

/-- Settles O17, by the length stage: each side is one update of the state, written out. -/
theorem navAcceptEmitsTheDecodedRecord : Obligations.NavAcceptEmitsTheDecodedRecord :=
  ⟨fun _ _ => exec_navAccept_of_length, fun _ _ => exec_navAccept_of_length_ne⟩

/-- Settles O18: the row is one discard. -/
theorem otherIdentifierIsDiscarded : Obligations.OtherIdentifierIsDiscarded :=
  exec_hdrOther

/-- Settles O19, stage by stage. -/
theorem dispatchRunsTheHeaderRow : Obligations.DispatchRunsTheHeaderRow :=
  ⟨fun _ s hx hlen => dispatch_eq_exec_decodeHeader hx hlen s, fun _ s hx => dispatch_of_xorAll_ne hx s,
    fun _ s hx hlen => dispatch_of_short hx hlen s⟩

/-! ### Errors that the checksum detects (R150) -/

/-- An error pattern in one byte of a frame is the same error pattern in the frame's XOR. -/
theorem xorAll_set_xor {f : List Byte} {i : Nat} (hi : i < f.length) (e : Byte) :
    xorAll (f.set i (f.getD i 0#8 ^^^ e)) = xorAll f ^^^ e := by
  induction f generalizing i with
  | nil => exact absurd hi (Nat.not_lt_zero i)
  | cons b f ih =>
    cases i with
    | zero =>
      change b ^^^ e ^^^ xorAll f = b ^^^ xorAll f ^^^ e
      rw [BitVec.xor_assoc, BitVec.xor_comm e, BitVec.xor_assoc]
    | succ i =>
      change b ^^^ xorAll (f.set i (f.getD i 0#8 ^^^ e)) = b ^^^ xorAll f ^^^ e
      rw [ih (Nat.lt_of_succ_lt_succ hi), BitVec.xor_assoc]

/-- An error pattern that is not 0, in one byte of a frame whose XOR is 0, leaves an XOR that is not 0. -/
theorem xorAll_set_xor_ne_zero {f : List Byte} {i : Nat} {e : Byte} (hx : xorAll f = 0#8) (hi : i < f.length)
    (he : e ≠ 0#8) : xorAll (f.set i (f.getD i 0#8 ^^^ e)) ≠ 0#8 := by
  rw [xorAll_set_xor hi, hx, BitVec.zero_xor]
  exact he

theorem singleBit_ne_zero {k : Nat} (hk : k < 8) : 1#8 <<< k ≠ 0#8 := by
  decide +revert

/-- Settles O22: the frame's XOR becomes the inverted bit, so the checksum stage stops the frame. -/
theorem singleBitErrorsAreRejected : Obligations.SingleBitErrorsAreRejected := by
  intro f i k hf hi hk
  obtain ⟨hx, _, _⟩ := accepted_iff.mp hf
  have hbad := xorAll_set_xor_ne_zero hx hi (singleBit_ne_zero hk)
  exact ⟨not_accepted_of_xorAll_ne hbad, dispatch_of_xorAll_ne hbad⟩

end Sys2Proof.Machine
end

section
/-! PROOFS of the statements about the field decoder: the extraction primitives and their ranges, the field rows, the
physical values, and the two floating-point readings. -/

namespace Sys2Proof.Machine

/-! ### Extraction (R12, R13, R161, R162) -/

/-- Little-endian assembly is the sum of the bytes times powers of 256 (R13). -/
theorem le_eq_sum (l : List Byte) : le l = ((List.range l.length).map fun i => (l.getD i 0#8).toNat * 256 ^ i).sum := by
  induction l with
  | nil => rfl
  | cons b bs ih =>
    have hshift (i : Nat) :
        ((b :: bs).getD (i + 1) 0#8).toNat * 256 ^ (i + 1) = 256 * ((bs.getD i 0#8).toNat * 256 ^ i) := by
      rw [List.getD_cons_succ, pow_succ]
      ring
    rw [List.length_cons, List.range_succ_eq_map, List.map_cons, List.map_map, List.sum_cons]
    simp only [Function.comp_def, Nat.succ_eq_add_one, hshift, List.sum_map_mul_left, ← ih]
    simp [le]

/-- The two's-complement value of a number's pattern is the signed value of the bit vector (R12). -/
theorem sext_toNat {w : Nat} (x : BitVec w) : sext w x.toNat = x.toInt := by
  rw [BitVec.toInt_eq_msb_cond, BitVec.msb_eq_getLsbD_last, sext]
  push_cast
  rfl

/-- Signed extraction reads the pattern of the bytes as a signed bit vector (R162). -/
theorem extractS_eq_toInt (p : List Byte) (o n : Nat) : extractS p o n = (pattern (8 * n) p o n).toInt := by
  rw [← sext_toNat, pattern_toNat rfl]
  rfl

theorem extractU_lt (p : List Byte) (o n : Nat) : extractU p o n < 2 ^ (8 * n) :=
  pattern_toNat rfl p o ▸ (pattern (8 * n) p o n).isLt

theorem neg_le_extractS (p : List Byte) (o n : Nat) : -(2 : Int) ^ (8 * n - 1) ≤ extractS p o n :=
  extractS_eq_toInt p o n ▸ BitVec.le_toInt _

theorem extractS_lt (p : List Byte) (o n : Nat) : extractS p o n < (2 : Int) ^ (8 * n - 1) :=
  extractS_eq_toInt p o n ▸ BitVec.toInt_lt

/-- Signed and unsigned extraction agree modulo `2 ^ (8 * n)` (R12). -/
theorem extractS_emod (p : List Byte) (o n : Nat) :
    extractS p o n % (2 : Int) ^ (8 * n) = (extractU p o n : Int) % (2 : Int) ^ (8 * n) := by
  rw [extractS_eq_toInt, BitVec.toInt_eq_toNat_bmod, pattern_toNat rfl]
  exact_mod_cast Int.bmod_emod

/-- Settles O27: the sum by induction on the bytes, the bound from the pattern's width, the fields by their layout. -/
theorem unsignedExtractionRange : Obligations.UnsignedExtractionRange :=
  ⟨fun p o n => ⟨rfl, extractU_lt p o n⟩, le_eq_sum, fun p =>
    ⟨fieldRaw_decodePayload .timeOfValidity p, fieldRaw_decodePayload .altitudeMetres p,
      fieldRaw_decodePayload .headingDegrees p, fieldRaw_decodePayload .statusFlags p⟩⟩

/-- Settles O28, from the range and the residue of the signed bit vector. -/
theorem signedExtractionRange : Obligations.SignedExtractionRange := fun p o n _ =>
  ⟨neg_le_extractS p o n, extractS_lt p o n, Int.emod_eq_emod_iff_emod_sub_eq_zero.mp (extractS_emod p o n)⟩

/-! ### The field rows (R160, R163, R166 to R194) -/

/-- Settles O23: each row is the write of its own field to the record under decode. -/
theorem sixteenBitFieldRowsStoreTheirPattern : Obligations.SixteenBitFieldRowsStoreTheirPattern := by
  and_intros <;> exact fun _ _ => rfl

/-- Settles O24: each row is the write of its own field to the record under decode. -/
theorem wideIntegerFieldRowsStoreTheirPattern : Obligations.WideIntegerFieldRowsStoreTheirPattern := by
  and_intros <;> exact fun _ _ => rfl

/-- Settles O25: each row is the write of its own field to the record under decode. -/
theorem errorEstimateRowsStoreTheirPattern : Obligations.ErrorEstimateRowsStoreTheirPattern := by
  and_intros <;> exact fun _ _ => rfl

/-! ### Physical values (R164, R167, R171, R173) -/

/-- A scaled field's physical value is its raw value times `num` over `den` (R164). -/
theorem fieldPhys_of_scale {f : Field} {num den : Nat} (h : fieldScale f = some (num, den)) (r : Record) :
    fieldPhys r f = some ((fieldRaw r f : Rat) * num / den) := by
  rw [fieldPhys, h]

/-- A field without a scale has no physical value (R164). -/
theorem fieldPhys_of_unscaled {f : Field} (h : fieldScale f = none) (r : Record) : fieldPhys r f = none := by
  rw [fieldPhys, h]

/-- Settles O30: eleven fields have no scale, and the other eighteen are scaled by the numbers of their rule. -/
theorem physicalValuesAreExactRationals : Obligations.PhysicalValuesAreExactRationals := by
  intro r
  and_intros
  any_goals exact fieldPhys_of_unscaled rfl r
  all_goals
    refine (fieldPhys_of_scale rfl r).trans ?_
    norm_num

/-- An unsigned extraction by its bytes, where they are known. -/
theorem extractU_of_bytes {p bytes : List Byte} {o n : Nat} (h : (p.drop o).take n = bytes) :
    extractU p o n = le bytes :=
  congrArg le h

/-- A signed extraction by its bytes, where they are known. -/
theorem extractS_of_bytes {p bytes : List Byte} {o n : Nat} (h : (p.drop o).take n = bytes) :
    extractS p o n = sext (8 * n) (le bytes) :=
  congrArg (fun l => sext (8 * n) (le l)) h

/-- Scaled by `c / 2 ^ (8 * n - 1)`, a signed extraction lies from `-c` to one unit of the scale below `c` (R167,
R171). -/
theorem extractS_scaled_range (p : List Byte) (o n : Nat) {c : Rat} (hc : 0 ≤ c) :
    -c ≤ (extractS p o n : Rat) * c / 2 ^ (8 * n - 1) ∧
      (extractS p o n : Rat) * c / 2 ^ (8 * n - 1) ≤ c - c / 2 ^ (8 * n - 1) := by
  have hunit : (0 : Rat) < 2 ^ (8 * n - 1) := by positivity
  have hlow : -(2 : Rat) ^ (8 * n - 1) ≤ extractS p o n := by exact_mod_cast neg_le_extractS p o n
  have hhigh : (extractS p o n : Rat) ≤ 2 ^ (8 * n - 1) - 1 := by
    exact_mod_cast Int.le_sub_one_of_lt (extractS_lt p o n)
  constructor
  · rw [le_div_iff₀ hunit]
    linarith [mul_le_mul_of_nonneg_right hlow hc]
  · rw [div_le_iff₀ hunit, sub_mul, div_mul_cancel₀ c hunit.ne']
    linarith [mul_le_mul_of_nonneg_right hhigh hc]

/-- Settles O31, from the layout, the range of a signed angle, and the value of each byte pattern. -/
theorem latitudeIsSignedAndScaledByNinety : Obligations.LatitudeIsSignedAndScaledByNinety := by
  refine ⟨fun p _ => ?_, fun _ _ => rfl⟩
  have hraw : fieldRaw (decodePayload p) .latitudeDegrees = extractS p 6 4 := fieldRaw_decodePayload .latitudeDegrees p
  have hphys : fieldPhys (decodePayload p) .latitudeDegrees = some ((extractS p 6 4 : Rat) * 90 / 2 ^ 31) := by
    rw [fieldPhys_of_scale rfl, hraw]
    norm_num
  obtain ⟨hlow, hhigh⟩ := extractS_scaled_range p 6 4 (c := 90) (by norm_num)
  refine ⟨rfl, rfl, hraw, _, hphys, rfl, hlow, hhigh, fun h => ?_, fun h => ?_, fun h => ?_⟩
  · have hs : extractS p 6 4 = -2 ^ 31 := extractS_of_bytes h
    rw [hs]
    norm_num
  · have hs : extractS p 6 4 = -1 := extractS_of_bytes h
    rw [hs]
    norm_num
  · have hs : extractS p 6 4 = 286331153 := extractS_of_bytes h
    rw [hs]
    norm_num

/-- Settles O32: heading's range is that of its two unsigned bytes, roll's that of a signed angle. -/
theorem headingIsUnsignedWhereRollIsSigned : Obligations.HeadingIsUnsignedWhereRollIsSigned := by
  refine ⟨fun p _ => ?_, fun _ _ => rfl⟩
  have hheading : fieldRaw (decodePayload p) .headingDegrees = extractU p 24 2 :=
    fieldRaw_decodePayload .headingDegrees p
  have hroll : fieldRaw (decodePayload p) .rollDegrees = extractS p 20 2 := fieldRaw_decodePayload .rollDegrees p
  have hheadingPhys : fieldPhys (decodePayload p) .headingDegrees = some ((extractU p 24 2 : Rat) * 180 / 2 ^ 15) := by
    rw [fieldPhys_of_scale rfl, hheading]
    norm_num
  have hrollPhys : fieldPhys (decodePayload p) .rollDegrees = some ((extractS p 20 2 : Rat) * 180 / 2 ^ 15) := by
    rw [fieldPhys_of_scale rfl, hroll]
    norm_num
  have hmax : (extractU p 24 2 : Rat) ≤ 65535 := by exact_mod_cast Nat.le_sub_one_of_lt (extractU_lt p 24 2)
  obtain ⟨hlow, hhigh⟩ := extractS_scaled_range p 20 2 (c := 180) (by norm_num)
  refine ⟨rfl, rfl, hheading, ⟨_, hheadingPhys, rfl, by positivity, by linarith, fun h => ?_, fun h => ?_, fun h => ?_⟩,
    _, hrollPhys, rfl, hlow, hhigh, fun h => ?_⟩
  · have hu : extractU p 24 2 = 2 ^ 15 := extractU_of_bytes h
    rw [hu]
    norm_num
  · have hu : extractU p 24 2 = 65535 := extractU_of_bytes h
    rw [hu]
    norm_num
  · have hu : extractU p 24 2 = 6371 := extractU_of_bytes h
    rw [hu]
    norm_num
  · have hs : extractS p 20 2 = -2 ^ 15 := extractS_of_bytes h
    rw [hs]
    norm_num

/-! ### The reading of a binary32 pattern (R163) -/

/-- The magnitude of a normal binary32 number is one fraction with denominator `2 ^ 150` (R163). -/
theorem mkRat_eq_normal (e m : Nat) :
    mkRat ((2 ^ 23 + m) * 2 ^ e : Nat) (2 ^ 150) = (2 : Rat) ^ ((e : Int) - 127) * (1 + (m : Rat) / 2 ^ 23) := by
  rw [Rat.mkRat_eq_div, zpow_sub₀ two_ne_zero, zpow_natCast]
  push_cast
  field_simp
  ring

/-- The magnitude of a subnormal binary32 number is one fraction with denominator `2 ^ 149` (R163). -/
theorem mkRat_eq_subnormal (m : Nat) : mkRat m (2 ^ 149) = (2 : Rat) ^ (-126 : Int) * ((m : Rat) / 2 ^ 23) := by
  rw [Rat.mkRat_eq_div]
  push_cast
  ring

/-- Settles O35, by the biased exponent and the fraction. -/
theorem binary32PatternsReadAsIeee754 : Obligations.Binary32PatternsReadAsIeee754 := by
  intro w s e m
  refine ⟨fun ⟨hpos, hlt⟩ => ?normal, fun hzero => ?subnormal, fun ⟨htop, hm⟩ => ?infinity, fun ⟨htop, hm⟩ => ?nan⟩
  case normal =>
    have htop : e ≠ 255 := by omega
    have hzero : e ≠ 0 := by omega
    rw [← mkRat_eq_normal]
    exact (if_neg htop).trans (if_neg hzero)
  case subnormal =>
    have htop : e ≠ 255 := by omega
    rw [← mkRat_eq_subnormal]
    exact (if_neg htop).trans (if_pos hzero)
  case infinity => exact (if_pos htop).trans (if_pos hm)
  case nan => exact (if_pos htop).trans (if_neg hm)

/-! ### The reference conversion to binary64 (R165, R196) -/

/-- A number that the divisor divides is not rounded. -/
theorem roundTiesEven_mul_left (q : Nat) {d : Nat} (hd : 0 < d) : roundTiesEven (d * q) d = q := by
  have hrem : 2 * (d * q % d) < d := by rwa [Nat.mul_mod_right, mul_zero]
  rw [roundTiesEven, if_pos hrem, Nat.mul_div_cancel_left q hd]

/-- The number of a normal pattern: its sign, `2 ^ 52` and the fraction, and its exponent (log 17). -/
theorem binary64Value_of_normal (neg : Prop) [Decidable neg] {e f : Nat} (hpos : 0 < e) (htop : e < 2047)
    (hf : f < 2 ^ 52) :
    binary64Value (BitVec.ofNat 64 ((if neg then 2 ^ 63 else 0) + (e * 2 ^ 52 + f))) =
      some ((if neg then -1 else 1) * (((2 ^ 52 + f : Nat) : Rat) * 2 ^ e / 2 ^ 1075)) := by
  generalize hw : BitVec.ofNat 64 ((if neg then 2 ^ 63 else 0) + (e * 2 ^ 52 + f)) = w
  have hnat : w.toNat = (if neg then 2 ^ 63 else 0) + (e * 2 ^ 52 + f) := by
    rw [← hw, BitVec.toNat_ofNat]
    split_ifs <;> omega
  have hexp : (w.extractLsb' 52 11).toNat = e := by
    rw [BitVec.extractLsb'_toNat, Nat.shiftRight_eq_div_pow, hnat]
    split_ifs <;> omega
  have hfrac : (w.extractLsb' 0 52).toNat = f := by
    rw [BitVec.extractLsb'_toNat, Nat.shiftRight_eq_div_pow, hnat]
    split_ifs <;> omega
  have hsign : w.getLsbD 63 = decide neg := by
    rw [BitVec.getLsbD, Nat.testBit_eq_decide_div_mod_eq, hnat, decide_eq_decide]
    split_ifs with hneg <;> simp only [hneg, iff_true, iff_false] <;> omega
  rw [binary64Value, hexp, hfrac, hsign, if_neg htop.ne, if_neg hpos.ne', Rat.mkRat_eq_div, Int.cast_natCast,
    Nat.cast_mul, Nat.cast_pow, Nat.cast_pow, Nat.cast_ofNat]
  by_cases hneg : neg <;> simp [hneg]

/-- A number below `2 ^ 53`, shifted up to 53 bits, is `2 ^ 52` and a fraction below it. -/
theorem exists_fraction {n : Nat} (h0 : n ≠ 0) (hn : n < 2 ^ 53) :
    n.log2 ≤ 52 ∧ ∃ f < 2 ^ 52, n * 2 ^ (52 - n.log2) = 2 ^ 52 + f := by
  have hlog : n.log2 ≤ 52 := Nat.le_of_lt_succ ((Nat.log2_lt h0).mpr hn)
  have hlow : 2 ^ n.log2 * 2 ^ (52 - n.log2) ≤ n * 2 ^ (52 - n.log2) := Nat.mul_le_mul_right _ (Nat.log2_self_le h0)
  have hhigh : n * 2 ^ (52 - n.log2) < 2 ^ (n.log2 + 1) * 2 ^ (52 - n.log2) :=
    Nat.mul_lt_mul_of_pos_right Nat.lt_log2_self (by positivity)
  have h52 : n.log2 + (52 - n.log2) = 52 := by omega
  have h53 : n.log2 + 1 + (52 - n.log2) = 53 := by omega
  rw [← pow_add, h52] at hlow
  rw [← pow_add, h53] at hhigh
  exact ⟨hlog, n * 2 ^ (52 - n.log2) - 2 ^ 52, by omega, by omega⟩

/-- The pattern of a number over a power of two: nothing is rounded, and the exponent is that of the leading bit. -/
theorem binary64Nearest_of_dyadic {x : Rat} {j f : Nat} (hden : x.den = 2 ^ j) (hj : j ≤ 31) (h0 : x.num.natAbs ≠ 0)
    (hlog : x.num.natAbs.log2 ≤ 52) (hf : f < 2 ^ 52)
    (hsig : x.num.natAbs * 2 ^ (52 - x.num.natAbs.log2) = 2 ^ 52 + f) :
    binary64Nearest x =
      BitVec.ofNat 64 ((if x.num < 0 then 2 ^ 63 else 0) + ((x.num.natAbs.log2 + 1023 - j) * 2 ^ 52 + f)) := by
  have hlead := Nat.log2_self_le h0
  rw [binary64Nearest]
  generalize x.num.natAbs = n at *
  generalize n.log2 = l at *
  have hle : 2 ^ j * 2 ^ ((l : Int) - j).toNat ≤ n * 2 ^ (-((l : Int) - j)).toNat := calc
    2 ^ j * 2 ^ ((l : Int) - j).toNat = 2 ^ l * 2 ^ (-((l : Int) - j)).toNat := by
      rw [← pow_add, ← pow_add]
      congr 1
      omega
    _ ≤ n * 2 ^ (-((l : Int) - j)).toNat := Nat.mul_le_mul_right _ hlead
  have hexp : max ((l : Int) - j) (-1022) = l - j := by omega
  have hdown : (((l : Int) - j) - 52).toNat = 0 := by omega
  have hup : (-(((l : Int) - j) - 52)).toNat = j + (52 - l) := by omega
  have hbias : (((l : Int) - j) + 1022).toNat = l + 1022 - j := by omega
  have hround : roundTiesEven (n * 2 ^ (j + (52 - l))) (2 ^ j * 2 ^ 0) = 2 ^ 52 + f := by
    rw [pow_add, mul_left_comm, hsig, pow_zero, mul_one, roundTiesEven_mul_left _ (by positivity)]
  simp only [hden, Nat.log2_two_pow, if_neg h0, if_pos hle, hexp, hdown, hup, hbias, hround]
  have hmag : (l + 1022 - j) * 2 ^ 52 + (2 ^ 52 + f) = (l + 1023 - j) * 2 ^ 52 + f := by omega
  have htop : (l + 1023 - j) * 2 ^ 52 + f < 2047 * 2 ^ 52 := by omega
  rw [hmag, if_pos htop]

/-- A rational is its sign, the magnitude of its numerator, and its denominator. -/
theorem eq_sign_mul_natAbs_div_den (x : Rat) : x = (if x.num < 0 then -1 else 1) * ((x.num.natAbs : Rat) / x.den) := by
  have hnum : (x.num : Rat) = (if x.num < 0 then -1 else 1) * (x.num.natAbs : Rat) := by
    rw [Nat.cast_natAbs]
    split_ifs with hneg
    · rw [abs_of_neg hneg, Int.cast_neg, neg_one_mul, neg_neg]
    · rw [abs_of_nonneg (not_lt.mp hneg), one_mul]
  rw [← mul_div_assoc, ← hnum, Rat.num_div_den]

/-- In lowest terms an integer over a power of two is no larger an integer over no larger a power. -/
theorem num_den_of_dyadic (m : Int) (k : Nat) :
    ((m : Rat) / 2 ^ k).num.natAbs ≤ m.natAbs ∧ ∃ j ≤ k, ((m : Rat) / 2 ^ k).den = 2 ^ j := by
  have hdiv : (m : Rat) / 2 ^ k = Rat.divInt m ((2 ^ k : Nat) : Int) := by
    rw [Rat.divInt_eq_div]
    push_cast
    rfl
  rw [hdiv]
  refine ⟨?_, (Nat.dvd_prime_pow Nat.prime_two).mp (Int.natCast_dvd_natCast.mp (Rat.den_dvd _ _))⟩
  obtain rfl | hm := eq_or_ne m 0
  · simp
  · exact Nat.le_of_dvd (Int.natAbs_pos.mpr hm) (Int.natAbs_dvd_natAbs.mpr (Rat.num_dvd m (by positivity)))

/-- The pattern of 0 stands for 0. -/
theorem binary64Value_binary64Nearest_zero : binary64Value (binary64Nearest 0) = some 0 := by
  decide +kernel

/-- An integer below `2 ^ 53` over a power of two of at most `2 ^ 31` is a binary64 number (R196). -/
theorem binary64Value_binary64Nearest {m : Int} {k : Nat} (hm : m.natAbs < 2 ^ 53) (hk : k ≤ 31) :
    binary64Value (binary64Nearest ((m : Rat) / 2 ^ k)) = some ((m : Rat) / 2 ^ k) := by
  obtain ⟨hle, j, hjk, hden⟩ := num_den_of_dyadic m k
  generalize (m : Rat) / 2 ^ k = x at *
  obtain rfl | hx := eq_or_ne x 0
  · exact binary64Value_binary64Nearest_zero
  have h0 : x.num.natAbs ≠ 0 := Int.natAbs_ne_zero.mpr (Rat.num_ne_zero.mpr hx)
  obtain ⟨hlog, f, hf, hsig⟩ := exists_fraction h0 (hle.trans_lt hm)
  have hmagnitude : ((2 ^ 52 + f : Nat) : Rat) * 2 ^ (x.num.natAbs.log2 + 1023 - j) / 2 ^ 1075 =
      (x.num.natAbs : Rat) / x.den := by
    have hexp : 52 - x.num.natAbs.log2 + (x.num.natAbs.log2 + 1023 - j) + j = 1075 := by omega
    rw [hden, ← hsig, div_eq_div_iff (by positivity) (by positivity), Nat.cast_mul, Nat.cast_pow, Nat.cast_pow,
      Nat.cast_ofNat, ← hexp, pow_add, pow_add]
    ring
  rw [binary64Nearest_of_dyadic hden (hjk.trans hk) h0 hlog hf hsig,
    binary64Value_of_normal _ (by omega) (by omega) hf, hmagnitude, ← eq_sign_mul_natAbs_div_den]

/-! ### The fields with a power-of-two denominator (R196) -/

/-- A field's pattern is below 2 to its width in bits (R72). -/
theorem bits_lt (r : Record) (f : Field) : r.bits f < 2 ^ (8 * f.width) := by
  cases f <;> exact BitVec.isLt _

theorem sext_natAbs_le {w v : Nat} (h : v < 2 ^ w) : (sext w v).natAbs ≤ 2 ^ w := by
  rw [sext]
  have hcast : ((2 ^ w : Nat) : Int) = 2 ^ w := Nat.cast_pow 2 w
  split <;> omega

/-- The raw value of a field is the signed or the unsigned value of its pattern, by its kind (R73). -/
theorem fieldRaw_eq (r : Record) (f : Field) :
    fieldRaw r f = bif (fieldKind f).signed then sext (8 * f.width) (r.bits f) else (r.bits f : Int) := by
  cases f <;> rfl

theorem fieldRaw_natAbs_le (r : Record) (f : Field) : (fieldRaw r f).natAbs ≤ 2 ^ (8 * f.width) := by
  have hbits := bits_lt r f
  rw [fieldRaw_eq]
  cases (fieldKind f).signed with
  | true => exact sext_natAbs_le hbits
  | false => exact hbits.le

/-- A field whose `den` is a power of two, and whose `num` leaves its raw value below `2 ^ 53` (R196). -/
theorem fieldPhys_dyadic {f : Field} {num k : Nat} (hscale : fieldScale f = some (num, 2 ^ k))
    (hnum : 2 ^ (8 * f.width) * num < 2 ^ 53) (r : Record) :
    ∃ m : Int, m.natAbs < 2 ^ 53 ∧ fieldPhys r f = some ((m : Rat) / 2 ^ k) := by
  refine ⟨fieldRaw r f * num, ?_, ?_⟩
  · rw [Int.natAbs_mul, Int.natAbs_natCast]
    exact (Nat.mul_le_mul_right _ (fieldRaw_natAbs_le r f)).trans_lt hnum
  · rw [fieldPhys_of_scale hscale]
    push_cast
    rfl

/-- Settles O33, from the scale of each of the seven fields. -/
theorem angleAndTimeFieldsAreExactInBinary64 : Obligations.AngleAndTimeFieldsAreExactInBinary64 := by
  intro r f hf
  have hscale : ∃ num k, fieldScale f = some (num, 2 ^ k) ∧ 2 ^ (8 * f.width) * num < 2 ^ 53 ∧ k ≤ 31 := by
    simp only [List.mem_cons, List.not_mem_nil, or_false] at hf
    rcases hf with rfl | rfl | rfl | rfl | rfl | rfl | rfl
    · exact ⟨1, 0, rfl, by decide, by decide⟩
    · exact ⟨90, 31, rfl, by decide, by decide⟩
    · exact ⟨180, 31, rfl, by decide, by decide⟩
    · exact ⟨180, 15, rfl, by decide, by decide⟩
    · exact ⟨180, 15, rfl, by decide, by decide⟩
    · exact ⟨180, 15, rfl, by decide, by decide⟩
    · exact ⟨1, 0, rfl, by decide, by decide⟩
  obtain ⟨num, k, hscale, hnum, hk⟩ := hscale
  obtain ⟨m, hm, hphys⟩ := fieldPhys_dyadic hscale hnum r
  exact ⟨⟨m, k, hm, hk, hphys⟩, _, hphys, binary64Value_binary64Nearest hm hk⟩

end Sys2Proof.Machine
end

section
/-! PROOFS of the statements about the status-bit accessor: `isSet` as a bit of `StatusFlags`, the two named flags, the
sum of the bits, and the payload bytes the bits come from. -/

namespace Sys2Proof.Machine

/-! ### The flag as a bit (R210, R212) -/

/-- The shift and mask of `isSet` read one bit (R210). -/
theorem isSet_eq_getLsbD (r : Record) (k : BitVec 4) : isSet r k = r.statusFlags.getLsbD k.toNat := by
  rw [isSet, BitVec.and_one_eq_setWidth_ofBool_getLsbD, BitVec.getLsbD_ushiftRight, Nat.add_zero]
  cases r.statusFlags.getLsbD k.toNat <;> rfl

/-- ISSET is the accessor row (R210). -/
theorem exec_isset (k : BitVec 4) (s : State) : exec (.isset k) s = execIsset k s := rfl

/-- ISSET while a record is pending: the block is as before, and the host sees one bit of the record (R210). -/
theorem exec_isset_of_pending {k : BitVec 4} {s : State} {r : Record} (hp : s.outPending = true)
    (hr : s.outRecord = some r) :
    exec (.isset k) s = .next (s.observe (.statusBit k (r.statusFlags.getLsbD k.toNat))) := by
  rw [exec_isset, execIsset, State.outValid_eq, hp, hr, ← isSet_eq_getLsbD]

/-- ISSET while no record is pending has no value: a fault of the reader (R232). -/
theorem exec_isset_of_not_pending {k : BitVec 4} {s : State} (hp : s.outPending = false) :
    exec (.isset k) s = .fault .statusBitHasNoValue := by
  rw [exec_isset, execIsset, State.outValid_eq, hp]

/-- Settles O36, by whether a record is pending. -/
theorem isSetReadsThePendingRecord : Obligations.IsSetReadsThePendingRecord :=
  ⟨fun _ _ _ => exec_isset_of_pending, fun _ _ => exec_isset_of_not_pending⟩

/-- A distance of 1 to 15 from a 4-bit position leads to another position (D18). -/
theorem orientNotSettledBit_ne_posInvalidBit : Config.orientNotSettledBit ≠ Config.posInvalidBit := by
  have hdistance := Config.posInvalidDistance.isLt
  intro h
  have hzero : BitVec.ofNat 4 (Config.posInvalidDistance.val + 1) = 0#4 := BitVec.self_eq_add_right.mp h
  have hmod : (Config.posInvalidDistance.val + 1) % 16 = 0 := congrArg BitVec.toNat hzero
  omega

/-- Settles O39: the positions differ by their distance, and each named flag is the bit at its position. -/
theorem namedFlagPositionsAreDistinct : Obligations.NamedFlagPositionsAreDistinct :=
  ⟨orientNotSettledBit_ne_posInvalidBit, fun r => ⟨isSet_eq_getLsbD r _, isSet_eq_getLsbD r _⟩⟩

/-! ### The flags as a number (R213, R214) -/

/-- The low `n` bits of a number, each times its power of 2, add up to its residue. -/
theorem sum_testBit_mul_two_pow (x n : Nat) :
    ((List.range n).map fun k => (x.testBit k).toNat * 2 ^ k).sum = x % 2 ^ n := by
  induction n with
  | zero => rw [pow_zero, Nat.mod_one]; rfl
  | succ n ih =>
    rw [List.sum_range_succ, ih, Nat.toNat_testBit, pow_succ, Nat.mod_mul, mul_comm (2 ^ n)]

/-- Settles O37: the 16 bits of `StatusFlags` are the whole number. -/
theorem statusFlagsIsTheSumOfItsBits : Obligations.StatusFlagsIsTheSumOfItsBits := by
  intro r
  have hbit : ∀ k ∈ List.range 16,
      (isSet r (BitVec.ofNat 4 k)).toNat * 2 ^ k = (r.statusFlags.toNat.testBit k).toNat * 2 ^ k := by
    intro k hk
    rw [isSet_eq_getLsbD, BitVec.toNat_ofNat, Nat.mod_eq_of_lt (List.mem_range.mp hk), BitVec.testBit_toNat]
  rw [List.map_congr_left hbit, sum_testBit_mul_two_pow, Nat.mod_eq_of_lt r.statusFlags.isLt]

/-! ### The flags in the payload (R13, R194, R210) -/

/-- Bit `k` of a little-endian number is bit `k % 8` of its byte `k / 8` (R13). -/
theorem le_testBit (l : List Byte) (k : Nat) : (le l).testBit k = (l.getD (k / 8) 0#8).getLsbD (k % 8) := by
  induction l generalizing k with
  | nil => simp [le]
  | cons b bs ih =>
    have hsplit : (le (b :: bs)).testBit k = if k < 8 then b.toNat.testBit k else (le bs).testBit (k - 8) := by
      rw [le, add_comm]
      exact Nat.testBit_two_pow_mul_add (le bs) b.isLt k
    rw [hsplit]
    split_ifs with hk
    · rw [Nat.div_eq_of_lt hk, Nat.mod_eq_of_lt hk, List.getD_cons_zero, BitVec.testBit_toNat]
    · have hdiv : k / 8 = (k - 8) / 8 + 1 := by omega
      have hmod : k % 8 = (k - 8) % 8 := by omega
      rw [ih, hdiv, hmod, List.getD_cons_succ]

/-- Bit `k` of an unsigned extraction is bit `k % 8` of payload byte `o + k / 8` (R161). -/
theorem extractU_testBit (p : List Byte) (o : Nat) {n k : Nat} (hk : k < 8 * n) :
    (extractU p o n).testBit k = (p.getD (o + k / 8) 0#8).getLsbD (k % 8) := by
  rw [extractU, le_testBit, List.getD_eq_getElem?_getD, getElem?_memRead_of_lt p o (Nat.div_lt_of_lt_mul hk),
    List.getD_eq_getElem?_getD]

/-- Settles O38: `StatusFlags` is the extraction at byte 88, whose bits lie in bytes 88 and 89. -/
theorem statusBitsComeFromPayloadBytes88And89 : Obligations.StatusBitsComeFromPayloadBytes88And89 := by
  intro p k _
  have hflags : (decodePayload p).statusFlags.toNat = extractU p 88 2 := bits_decodePayload .statusFlags p
  rw [isSet_eq_getLsbD, ← BitVec.testBit_toNat, hflags, extractU_testBit p 88 k.isLt]
  split_ifs with hk
  · rw [Nat.div_eq_of_lt hk, Nat.mod_eq_of_lt hk]
  · have hdiv : k.toNat / 8 = 1 := by omega
    have hmod : k.toNat % 8 = k.toNat - 8 := by omega
    rw [hdiv, hmod]

end Sys2Proof.Machine
end

section
/-! PROOFS of the statements about the ports: what a byte transaction gives, when a step faults, what an acceptance
delivers, that nothing reads the trace, and the packing of the `out_record` port. -/

namespace Sys2Proof.Machine

/-! ### What a byte transaction gives (R101, R222) -/

/-- From `s` to `t` the output port stays as it is, and the trace gets the label `d` of the byte in hand, if any. -/
structure GivesLabel (d : Option Discard) (s t : State) : Prop where
  outPending : t.outPending = s.outPending
  outRecord : t.outRecord = s.outRecord
  trace : t.trace = s.trace ++ (d.map (.label s.byteIndex)).toList

/-- A change of the deframer alone gives no label. -/
theorem GivesLabel.none_of_eq {s t : State} (hp : t.outPending = s.outPending) (hr : t.outRecord = s.outRecord)
    (ht : t.trace = s.trace) : GivesLabel none s t :=
  ⟨hp, hr, ht.trans (List.append_nil _).symm⟩

/-- A row of the transition table completes: with at most one label, or with the record of an accepted frame. -/
theorem exec_gives {i : Instr} (hsite : i.site = .step) (s : State) :
    ∃ t, exec i s = .next t ∧
      ((∃ d, GivesLabel d s t) ∨
        i = .inframeescEnd ∧ accepted s.buf = true ∧
          t = (s.hardReset.emit (decodePayload (payload s.buf))).endDispatch) := by
  cases i
  case inframeescEnd =>
    refine ⟨_, exec_inframeescEnd s, ?_⟩
    unfold State.complete
    split_ifs with hf
    · exact .inr ⟨rfl, hf, rfl⟩
    · exact .inl ⟨some _, rfl, rfl, rfl⟩
  case escseenOther | inframeescOther | inframeescStart => exact ⟨_, rfl, .inl ⟨some _, rfl, rfl, rfl⟩⟩
  case idleEsc | idleStart | idleEnd | idleOther | escseenEsc | escseenStart | escseenEnd | inframeEsc | inframeStart |
      inframeEnd | inframeOther | inframeescEsc =>
    exact ⟨_, rfl, .inl ⟨none, .none_of_eq rfl rfl rfl⟩⟩
  all_goals cases hsite

/-- In `Idle` no byte gives a label or a record (R103 to R106). -/
theorem exec_idle_gives_nothing (c : ByteClass) (b : Byte) (s : State) :
    ∃ t, exec (opcodeMap .idle c b) s = .next t ∧ GivesLabel none s t := by
  cases c <;> exact ⟨_, rfl, .none_of_eq rfl rfl rfl⟩

/-- A byte transaction completes: with at most one label, or with the record of the accepted frame that its byte
completes. A firing pre-check is the one label, since its byte is then read in `Idle`. -/
theorem byteTransaction_gives (b : Byte) (s : State) :
    ∃ t, byteTransaction b s = .next t ∧
      ((∃ d, GivesLabel d s t) ∨
        (s.parser = .inFrameEscapeSeen ∧ b = Config.endMarker ∧ accepted s.buf = true ∧
          t = (s.hardReset.emit (decodePayload (payload s.buf))).endDispatch.nextByte)) := by
  by_cases hlen : s.bufMax < s.buf.length
  · obtain ⟨t, ht, hp, hr, htr⟩ := exec_idle_gives_nothing (classify b) b (s.hardReset.discard .overflow)
    refine ⟨t.nextByte, ?_, .inl ⟨some .overflow, hp, hr, htr.trans (List.append_nil _)⟩⟩
    rw [byteTransaction_of_lt b hlen, byteTransaction_of_le b (Nat.zero_le _)]
    exact congrArg (andThen · _) ht
  · obtain ⟨t, ht, hgives⟩ := exec_gives (opcodeMap_site s.parser (classify b) b) s
    refine ⟨t.nextByte, ?_, ?_⟩
    · rw [byteTransaction_of_le b (Nat.not_lt.mp hlen), ht, andThen_next]
    · obtain ⟨d, hp, hr, htr⟩ | ⟨hrow, hf, rfl⟩ := hgives
      · exact .inl ⟨d, hp, hr, htr⟩
      · obtain ⟨hparser, hb⟩ := opcodeMap_eq_inframeescEnd hrow
        exact .inr ⟨hparser, hb, hf, rfl⟩

/-- Settles O46, by what a byte transaction gives. -/
theorem byteTransactionGivesAtMostOneRecordOrLabel : Obligations.ByteTransactionGivesAtMostOneRecordOrLabel := by
  intro b s hs
  obtain ⟨t, ht, hgives⟩ := byteTransaction_gives b s
  refine ⟨t, ht, (byteTransaction_sameSurroundings ht).byteIndex, ?_⟩
  obtain ⟨d, hp, hr, htr⟩ | ⟨hparser, hb, hf, rfl⟩ := hgives
  · refine .inl ⟨hp.trans hs, hr, ?_⟩
    cases d with
    | none => exact .inl (htr.trans (List.append_nil _))
    | some d => exact .inr ⟨d, htr⟩
  · exact .inr ⟨rfl, rfl, hparser, hb, hf, rfl, rfl, rfl⟩

/-! ### Reads of a port (R210, R231, R232, I5) -/

/-- The ports show no record: none is pending, or none is there. -/
def State.ShowsNoRecord (s : State) : Prop := s.outPending = false ∨ s.outRecord = none

theorem pending_or_showsNoRecord (s : State) :
    (∃ r, s.outPending = true ∧ s.outRecord = some r) ∨ s.ShowsNoRecord := by
  cases hp : s.outPending with
  | false => exact .inr (.inl hp)
  | true =>
    cases hr : s.outRecord with
    | none => exact .inr (.inr hr)
    | some r => exact .inl ⟨r, rfl, rfl⟩

/-- A read of `out_record` shows the pending record, packed (R231). -/
theorem readOutRecord_of_pending {s : State} {r : Record} (hp : s.outPending = true) (hr : s.outRecord = some r) :
    readOutRecord s = .next (s.observe (.outRecord r.packed)) := by
  rw [readOutRecord, State.outValid_eq, hp, hr]

/-- A read of `out_record` that shows no record faults (R232). -/
theorem readOutRecord_of_showsNoRecord {s : State} (h : s.ShowsNoRecord) :
    readOutRecord s = .fault .outRecordHasNoValue := by
  obtain h | h := h <;> simp [readOutRecord, h]

/-- A read of `status_bit` that shows no record faults (R232). -/
theorem exec_isset_of_showsNoRecord {k : BitVec 4} {s : State} (h : s.ShowsNoRecord) :
    exec (.isset k) s = .fault .statusBitHasNoValue := by
  obtain h | h := h <;> simp [exec_isset, execIsset, h]

/-! ### The one way a step faults (R220, R232, I5) -/

/-- The host actions that read a port, each with the fault of its port (I5). -/
inductive ReadFault : HostEvent → Host.Outcome State Fault Refusal → Prop where
  | statusBit (k : BitVec 4) : ReadFault (.readStatus k) (.fault .statusBitHasNoValue)
  | outRecord : ReadFault .readRecord (.fault .outRecordHasNoValue)

/-- An action of the host completes, or is the faulting read of a port that shows no record. -/
theorem hostEvent_completes_or_faults (e : HostEvent) (s : State) :
    (∃ t, hostEvent e s = .next t) ∨ s.ShowsNoRecord ∧ ReadFault e (hostEvent e s) := by
  cases e with
  | feed | accept | ready | attach | rst => exact .inl ⟨_, rfl⟩
  | readStatus k =>
    obtain ⟨r, hp, hr⟩ | hnone := pending_or_showsNoRecord s
    · exact .inl ⟨_, exec_isset_of_pending (k := k) hp hr⟩
    · have hfault : hostEvent (.readStatus k) s = _ := exec_isset_of_showsNoRecord (k := k) hnone
      exact .inr ⟨hnone, hfault ▸ .statusBit k⟩
  | readRecord =>
    obtain ⟨r, hp, hr⟩ | hnone := pending_or_showsNoRecord s
    · exact .inl ⟨_, readOutRecord_of_pending hp hr⟩
    · have hfault : hostEvent .readRecord s = _ := readOutRecord_of_showsNoRecord hnone
      exact .inr ⟨hnone, hfault ▸ .outRecord⟩

/-- So does the host's turn: it is nothing, or the next action. -/
theorem hostTurn_completes_or_faults (s : State) :
    (∃ t, hostTurn s = .next t) ∨
      s.ShowsNoRecord ∧ ∃ a es, s.events = a :: es ∧ ReadFault a.event (hostTurn s) := by
  obtain ⟨_, hs⟩ | ⟨a, es, he, hs⟩ := hostTurn_cases s
  · exact .inl ⟨s, hs⟩
  · rw [hs]
    exact (hostEvent_completes_or_faults a.event (s.setEvents es)).imp_right fun ⟨hnone, hread⟩ =>
      ⟨hnone, a, es, he, hread⟩

/-- Where a record is present exactly while one is pending, ports show none only with `OutPending = 0` (R28). -/
theorem State.ShowsNoRecord.outPending_eq {s : State} (h : s.ShowsNoRecord)
    (hinv : s.outRecord.isSome = s.outPending) : s.outPending = false := by
  obtain h | h := h
  · exact h
  · rw [← hinv, h]; rfl

/-- A step completes, or is the host's turn with a faulting read. -/
theorem step_completes_or_faults (s : State) :
    (∃ t, step s = .next t) ∨
      s.ShowsNoRecord ∧ (s.hostFirst = true ∨ s.Stalled) ∧
        ∃ a es, s.events = a :: es ∧ ReadFault a.event (step s) := by
  have hturn := hostTurn_completes_or_faults s
  obtain ⟨hfirst, hs⟩ | ⟨_, _, _, hs⟩ | ⟨_, _, b, rest, _, hs⟩ | ⟨_, hstalled, hs⟩ := cycle_cases s
  · rw [← hs] at hturn
    exact hturn.imp_right fun ⟨hnone, hread⟩ => ⟨hnone, .inl hfirst, hread⟩
  · exact .inl ⟨_, hs⟩
  · obtain ⟨t, ht, _⟩ := byteTransaction_gives b (s.setInPort rest)
    exact .inl ⟨t, hs.trans ht⟩
  · rw [← hs] at hturn
    exact hturn.imp_right fun ⟨hnone, hread⟩ => ⟨hnone, .inr hstalled, hread⟩

/-- Settles O47: the invariant leaves a faulting read only `OutPending = 0`. -/
theorem onlyPortReadsFault : Obligations.OnlyPortReadsFault := by
  rintro s ⟨_, _, _, hrec, _, _⟩
  refine (step_completes_or_faults s).imp_right ?_
  rintro ⟨hnone, hwhen, ⟨first, e⟩, es, he, hread⟩
  have hp : s.outPending = false := hnone.outPending_eq hrec
  have hturn : first = true ∨ s.inPort = [] := by
    obtain hfirst | hstalled := hwhen
    · rw [hostFirst_of_cons he, Bool.and_eq_true] at hfirst
      exact .inl hfirst.1
    · simpa [State.Stalled, hp] using Or.inr hstalled
  refine ⟨hp, first, es, hturn, ?_⟩
  generalize step s = o at hread ⊢
  cases hread with
  | statusBit k => exact .inl ⟨k, he, rfl⟩
  | outRecord => exact .inr ⟨he, rfl⟩

/-! ### Acceptance (R232, D15) -/

/-- An acceptance by an attached consumer ends the pending record and puts it in the observation. -/
theorem accept_of_attached {s : State} {level : Bool} {r : Record} (hc : s.consumer = some level)
    (hr : s.outRecord = some r) :
    s.accept = { s with outPending := false, outRecord := none, trace := s.trace ++ [.record r] } := by
  rw [State.accept, hc, hr]

/-- With no consumer an acceptance ends the pending record and nothing else. -/
theorem accept_of_detached {s : State} (hc : s.consumer = none) :
    s.accept = { s with outPending := false, outRecord := none } := by
  rw [State.accept, hc]

/-- Before a record that is accepted at once only an `rst` comes first (D15). -/
theorem hostFirst_of_acceptsAtOnce {s : State} (hacc : s.acceptsAtOnce = true)
    (h : s.events.head? ≠ some ⟨true, .rst⟩) : s.hostFirst = false := by
  cases he : s.events with
  | nil => exact hostFirst_of_nil he
  | cons a es =>
    obtain ⟨first, e⟩ := a
    rw [hostFirst_of_cons he, hacc, Bool.not_true, Bool.false_or, Bool.and_eq_false_iff, beq_eq_false_iff_ne]
    cases first with
    | false => exact .inl rfl
    | true => exact .inr fun hrst => h (by rw [he, List.head?_cons, ← hrst])

/-- Settles O44: an acceptance where `out_ready` is 1, by no consumer or an attached one, and by an accept action. -/
theorem acceptanceDeliversTheRecordOnce : Obligations.AcceptanceDeliversTheRecordOnce := by
  refine ⟨fun s r hf hp hr hc => ?_, fun s r hrst hp hr hc => ?_, fun s r first es hp hr hc he => ?_, fun s r => ?_⟩
  · rw [step_of_outReady hf hp (by rw [State.outReady, hc]), accept_of_attached hc hr]
  · have hacc : s.acceptsAtOnce = true := by rw [acceptsAtOnce_eq, hp, hc]; rfl
    rw [step_of_outReady (hostFirst_of_acceptsAtOnce hacc hrst) hp (by rw [State.outReady, hc]), accept_of_detached hc]
  · have hstalled : s.Stalled := .inl ⟨hp, by rw [State.outReady, hc]⟩
    rw [step_of_hostAction (.inr hstalled) he, hostEvent, State.outValid_eq, State.setEvents_outPending, if_pos hp,
      accept_of_attached (s := s.setEvents es) hc hr]
    rfl
  · exact List.filterMap_append

/-! ### The trace (R32, R221, R229) -/

/-- `s` with another observation trace. -/
def State.withTrace (s : State) (o : List Obs) : State := { s with trace := o }

/-- What `k` answers does not depend on the trace, but for the trace it answers. -/
def IgnoresTrace (k : State → Host.Outcome State Fault Refusal) : Prop :=
  ∀ s o, (∃ t o', k s = .next t ∧ k (s.withTrace o) = .next (t.withTrace o')) ∨
    ∃ r, k s = .fault r ∧ k (s.withTrace o) = .fault r

/-- One after another, two parts that ignore the trace ignore it. -/
theorem IgnoresTrace.andThen {j k : State → Host.Outcome State Fault Refusal} (hj : IgnoresTrace j)
    (hk : IgnoresTrace k) : IgnoresTrace fun s => andThen (j s) k := by
  intro s o
  dsimp only
  obtain ⟨t, o', ht, ht'⟩ | ⟨r, hr, hr'⟩ := hj s o
  · rw [ht, ht']
    exact hk t o'
  · rw [hr, hr']
    exact .inr ⟨r, rfl, rfl⟩

theorem execPrecheckOverflow_ignoresTrace : IgnoresTrace execPrecheckOverflow := by
  intro s o
  by_cases hlen : s.bufMax < s.buf.length
  · exact .inl ⟨_, _, if_pos hlen, if_pos hlen⟩
  · exact .inl ⟨_, _, if_neg hlen, if_neg hlen⟩

theorem execNavAccept_ignoresTrace (x : BitVec 6) : IgnoresTrace (execNavAccept x) := by
  intro s o
  by_cases hlen : s.frame.length - Config.frameOverhead = Config.navPayloadLen
  · exact .inl ⟨_, _, execNavAccept_of_length hlen, execNavAccept_of_length (s := s.withTrace o) hlen⟩
  · exact .inl ⟨_, _, if_neg hlen, if_neg hlen⟩

/-- A completed frame is accepted or labelled whatever the trace is. -/
theorem exec_inframeescEnd_ignoresTrace : IgnoresTrace (exec .inframeescEnd) := by
  intro s o
  have hrow := exec_inframeescEnd s
  have hrow' := exec_inframeescEnd (s.withTrace o)
  by_cases hf : accepted s.buf = true
  · exact .inl ⟨_, _, hrow.trans (congrArg _ (if_pos hf)), hrow'.trans (congrArg _ (if_pos hf))⟩
  · exact .inl ⟨_, _, hrow.trans (congrArg _ (if_neg hf)), hrow'.trans (congrArg _ (if_neg hf))⟩

theorem exec_isset_ignoresTrace (k : BitVec 4) : IgnoresTrace (exec (.isset k)) := by
  intro s o
  obtain ⟨r, hp, hr⟩ | hnone := pending_or_showsNoRecord s
  · exact .inl ⟨_, _, exec_isset_of_pending hp hr, exec_isset_of_pending (s := s.withTrace o) hp hr⟩
  · exact .inr ⟨_, exec_isset_of_showsNoRecord hnone, exec_isset_of_showsNoRecord (s := s.withTrace o) hnone⟩

theorem readOutRecord_ignoresTrace : IgnoresTrace readOutRecord := by
  intro s o
  obtain ⟨r, hp, hr⟩ | hnone := pending_or_showsNoRecord s
  · exact .inl ⟨_, _, readOutRecord_of_pending hp hr, readOutRecord_of_pending (s := s.withTrace o) hp hr⟩
  · exact .inr ⟨_, readOutRecord_of_showsNoRecord hnone, readOutRecord_of_showsNoRecord (s := s.withTrace o) hnone⟩

/-- No row of the table reads the trace: four decide something first, every other is a single update. -/
theorem exec_ignoresTrace (i : Instr) : IgnoresTrace (exec i) := by
  cases i
  case precheckOverflow => exact execPrecheckOverflow_ignoresTrace
  case inframeescEnd => exact exec_inframeescEnd_ignoresTrace
  case navAccept x => exact execNavAccept_ignoresTrace x
  case isset k => exact exec_isset_ignoresTrace k
  all_goals exact fun s o => .inl ⟨_, _, rfl, rfl⟩

/-- A byte transaction selects its row by the parser state, and so apart from the trace. -/
theorem byteTransaction_ignoresTrace (b : Byte) : IgnoresTrace (byteTransaction b) := by
  have hindex : IgnoresTrace fun s => .next s.nextByte := fun s o => .inl ⟨_, _, rfl, rfl⟩
  have hrow : IgnoresTrace fun s =>
      andThen (exec (decodeStep (stepWord s.parser b)) s) fun t => .next t.nextByte := fun s o =>
    (exec_ignoresTrace (decodeStep (stepWord s.parser b))).andThen hindex s o
  exact (exec_ignoresTrace .precheckOverflow).andThen hrow

theorem hostEvent_ignoresTrace (e : HostEvent) : IgnoresTrace (hostEvent e) := by
  intro s o
  cases e with
  | feed | rst => exact .inl ⟨_, _, rfl, rfl⟩
  | accept =>
    by_cases hp : s.outPending = true
    · exact .inl ⟨_, _, congrArg Host.Outcome.next (if_pos hp), congrArg Host.Outcome.next (if_pos hp)⟩
    · exact .inl ⟨_, _, congrArg Host.Outcome.next (if_neg hp), congrArg Host.Outcome.next (if_neg hp)⟩
  | ready | attach =>
    by_cases hc : s.consumer.isSome = true
    · exact .inl ⟨_, _, congrArg Host.Outcome.next (if_pos hc), congrArg Host.Outcome.next (if_pos hc)⟩
    · exact .inl ⟨_, _, congrArg Host.Outcome.next (if_neg hc), congrArg Host.Outcome.next (if_neg hc)⟩
  | readStatus k => exact exec_isset_ignoresTrace k s o
  | readRecord => exact readOutRecord_ignoresTrace s o

theorem hostTurn_ignoresTrace : IgnoresTrace hostTurn := by
  intro s o
  cases he : s.events with
  | nil => exact .inl ⟨s, o, by rw [hostTurn, he], by simp [hostTurn, State.withTrace, he]⟩
  | cons a es =>
    rw [hostTurn_of_cons he, hostTurn_of_cons (s := s.withTrace o) he]
    exact hostEvent_ignoresTrace a.event (s.setEvents es) o

/-- Which event a step is does not depend on the trace, and no event reads it. -/
theorem step_ignoresTrace : IgnoresTrace step := by
  intro s o
  obtain ⟨hfirst, hs⟩ | ⟨hf, hp, hr, hs⟩ | ⟨hf, hp, b, rest, hport, hs⟩ | ⟨_, hstalled, hs⟩ := cycle_cases s
  · rw [step_of_hostFirst hfirst, step_of_hostFirst (s := s.withTrace o) hfirst]
    exact hostTurn_ignoresTrace s o
  · exact .inl ⟨_, _, step_of_outReady hf hp hr, step_of_outReady (s := s.withTrace o) hf hp hr⟩
  · rw [step_of_byte hf hp hport, step_of_byte (s := s.withTrace o) hf hp hport]
    exact byteTransaction_ignoresTrace b (s.setInPort rest) o
  · rw [step_of_stalled hstalled, step_of_stalled (s := s.withTrace o) hstalled]
    exact hostTurn_ignoresTrace s o

/-- Settles O51, by the two kinds of outcome a step can have. -/
theorem traceIsNeverRead : Obligations.TraceIsNeverRead := by
  intro s o
  obtain ⟨t, o', ht, ht'⟩ | ⟨r, hr, hr'⟩ := step_ignoresTrace s o
  · refine ⟨fun u hu => ?_, fun r hr => nomatch ht.symm.trans hr⟩
    cases ht.symm.trans hu
    exact ⟨o', ht'⟩
  · refine ⟨fun t ht => (nomatch hr.symm.trans ht), fun u hu => ?_⟩
    cases hr.symm.trans hu
    exact hr'

/-! ### The packing of `out_record` (R45, R47, R72, R231) -/

/-- The bits of the listed fields of a record as one number, the first field least significant. -/
def packFields (r : Record) : List Field → Nat
  | [] => 0
  | f :: fs => r.bits f + 2 ^ (8 * f.width) * packFields r fs

/-- The listed fields stand one behind another from offset `o` on (R72). -/
def LaidFrom : Nat → List Field → Prop
  | _, [] => True
  | o, f :: fs => f.offset = o ∧ LaidFrom (o + f.width) fs

theorem laidFrom_fieldAll : LaidFrom 0 Field.all := by
  simp [Field.all, LaidFrom, Field.offset, Field.width]

theorem toNat_append_eq_add {v w : Nat} (x : BitVec v) (y : BitVec w) : (x ++ y).toNat = y.toNat + 2 ^ w * x.toNat := by
  rw [BitVec.toNat_append, ← Nat.shiftLeft_add_eq_or_of_lt y.isLt, Nat.shiftLeft_eq]
  ring

/-- The port packs the fields in the order of the layout (R231). -/
theorem packed_toNat (r : Record) : r.packed.toNat = packFields r Field.all := by
  simp only [Record.packed, toNat_append_eq_add]
  rfl

/-- A field stands in the packing at its distance from the first field. -/
theorem packFields_div_mod {r : Record} {f : Field} {l : List Field} {o : Nat} (hl : LaidFrom o l) (hf : f ∈ l) :
    ∃ d, f.offset = o + d ∧ packFields r l / 2 ^ (8 * d) % 2 ^ (8 * f.width) = r.bits f := by
  induction l generalizing o with
  | nil => cases hf
  | cons g fs ih =>
    obtain ⟨hg, hfs⟩ := hl
    obtain rfl | hf := List.mem_cons.mp hf
    · refine ⟨0, hg, ?_⟩
      rw [Nat.mul_zero, pow_zero, Nat.div_one, packFields, Nat.add_mul_mod_self_left, Nat.mod_eq_of_lt (bits_lt r f)]
    · obtain ⟨d, hd, hbits⟩ := ih hfs hf
      have hskip : packFields r (g :: fs) / 2 ^ (8 * g.width) = packFields r fs := by
        rw [packFields, Nat.add_mul_div_left _ _ (Nat.two_pow_pos _), Nat.div_eq_of_lt (bits_lt r g), Nat.zero_add]
      refine ⟨g.width + d, by rw [hd, Nat.add_assoc], ?_⟩
      rw [Nat.mul_add, pow_add, ← Nat.div_div_eq_div_mul, hskip, hbits]

/-- Little-endian assembly of two sequences, one behind the other (R13). -/
theorem le_append (l m : List Byte) : le (l ++ m) = le l + 256 ^ l.length * le m := by
  induction l with
  | nil => simp [le]
  | cons b bs ih =>
    rw [List.cons_append, le, le, ih, List.length_cons, pow_succ]
    ring

/-- The fields of `decode(p)` from offset `o` on pack to the little-endian number of the bytes from there on. -/
theorem packFields_decodePayload {p : List Byte} {l : List Field} {o : Nat} (hl : LaidFrom o l)
    (hlen : p.length = o + (l.map Field.width).sum) : packFields (decodePayload p) l = le (p.drop o) := by
  induction l generalizing o with
  | nil => rw [List.drop_of_length_le (show p.length ≤ o from hlen.le)]; rfl
  | cons f fs ih =>
    obtain ⟨rfl, hfs⟩ := hl
    rw [List.map_cons, List.sum_cons, ← Nat.add_assoc] at hlen
    have hread : (memRead p f.offset f.width).length = f.width := memRead_length (by omega)
    calc packFields (decodePayload p) (f :: fs)
        = extractU p f.offset f.width + 256 ^ f.width * le (p.drop (f.offset + f.width)) := by
          rw [packFields, bits_decodePayload, ih hfs hlen, pow_mul]; rfl
      _ = le (memRead p f.offset f.width ++ p.drop (f.offset + f.width)) := by rw [le_append, hread]; rfl
      _ = le (p.drop f.offset) := by rw [memRead, ← List.drop_drop, List.take_append_drop]

/-- Settles O34: the port read by its two cases, the packing by the layout of the fields. -/
theorem outRecordPortIsTheLittleEndianPayload : Obligations.OutRecordPortIsTheLittleEndianPayload := by
  refine ⟨fun s r => readOutRecord_of_pending, fun s hp => readOutRecord_of_showsNoRecord (.inl hp),
    fun p hlen => ?_, fun r f => ?_⟩
  · rw [packed_toNat, packFields_decodePayload laidFrom_fieldAll hlen, List.drop_zero]
  · obtain ⟨d, hd, hbits⟩ := packFields_div_mod (r := r) laidFrom_fieldAll (mem_fieldAll f)
    rw [packed_toNat, hd, Nat.zero_add, hbits]

end Sys2Proof.Machine
end

section
/-! PROOFS of the statements about reset and hazards: the invariant of the event boundaries under every step, a frame
sent while an escape is pending outside a frame, and the host's reset. -/

namespace Sys2Proof.Machine

/-! ### The invariant under the state operations (R24, R25, R28, R31) -/

@[simp] theorem inFrameFlag_inFrame : inFrameFlag .inFrame = true := rfl

section
variable {s t : State}

/-- With an empty buffer the deframer's part of the invariant holds in every parser state and for every bound. -/
theorem boundaryInv_of_buf_eq_nil (hbuf : s.buf = []) (hrec : s.outRecord.isSome = s.outPending) (hframe : s.frame = [])
    (hwork : s.work = Record.blank) : BoundaryInv s := by
  refine ⟨fun _ => hbuf, ?_, fun hfull => ?_, hrec, hframe, hwork⟩
  · rw [hbuf]; exact wf_nil _
  · rw [hbuf] at hfull; cases hfull

/-- The clear keeps the invariant, whatever state is entered with it. -/
theorem BoundaryInv.clearBuf_goto (h : BoundaryInv s) (p : ParserState) : BoundaryInv (s.clearBuf.goto p) := by
  obtain ⟨_, _, _, hrec, hframe, hwork⟩ := h
  exact boundaryInv_of_buf_eq_nil rfl hrec hframe hwork

/-- A state may be entered below the bound, and one outside a frame with an empty buffer only (R24, R25). -/
theorem BoundaryInv.goto (h : BoundaryInv s) (hlen : s.buf.length ≤ s.bufMax) {p : ParserState}
    (hp : inFrameFlag p = false → s.buf = []) : BoundaryInv (s.goto p) := by
  obtain ⟨_, hwf, _, hrest⟩ := h
  exact ⟨hp, hwf, fun hfull => absurd (hlen.trans_lt (Nat.lt_succ_self _)) hfull.not_lt, hrest⟩

/-- The append below the bound keeps the invariant in `InFrame`, the one state where it may reach one past the bound. -/
theorem BoundaryInv.append_goto_inFrame (h : BoundaryInv s) (hlen : s.buf.length ≤ s.bufMax) (b : Byte) :
    BoundaryInv ((s.append b).goto .inFrame) := by
  obtain ⟨_, _, _, hrest⟩ := h
  exact ⟨by simp, wf_appendByte b hlen, fun _ => rfl, hrest⟩

/-- A completed frame leaves an empty buffer, and a record exactly when it sets `OutPending` (R117, R146). -/
theorem BoundaryInv.complete (h : BoundaryInv s) : BoundaryInv s.complete := by
  obtain ⟨_, _, _, hrec, _, _⟩ := h
  unfold State.complete
  split_ifs
  · exact boundaryInv_of_buf_eq_nil rfl rfl rfl rfl
  · exact boundaryInv_of_buf_eq_nil rfl hrec rfl rfl

/-- An acceptance takes the record away together with `OutPending` (R232). -/
theorem BoundaryInv.accept (h : BoundaryInv s) : BoundaryInv s.accept := by
  obtain ⟨hout, hwf, hfull, _, hrest⟩ := h
  exact ⟨hout, hwf, hfull, rfl, hrest⟩

/-! ### The invariant under every event (R259) -/

/-- A transition below the bound, by the parser state and the class of the byte (R103 to R118). -/
theorem exec_opcodeMap_boundaryInv (h : BoundaryInv s) (hlen : s.buf.length ≤ s.bufMax) {c : ByteClass} {b : Byte}
    (hrow : exec (opcodeMap s.parser c b) s = .next t) : BoundaryInv t := by
  have hout : inFrameFlag s.parser = false → s.buf = [] := h.1
  cases hp : s.parser with
  | idle =>
    rw [hp] at hrow hout
    cases c with
    | escape => cases hrow; exact h.goto hlen fun _ => hout rfl
    | start | endMark | other => cases hrow; exact h
  | escapeSeen =>
    rw [hp] at hrow hout
    cases c with
    | escape | endMark => cases hrow; exact h.goto hlen fun _ => hout rfl
    | start => cases hrow; exact h.clearBuf_goto .inFrame
    | other => cases hrow; exact h.clearBuf_goto .idle
  | inFrame =>
    rw [hp] at hrow
    cases c with
    | escape => cases hrow; exact h.goto hlen nofun
    | start | endMark | other =>
      cases hrow
      exact State.goto_eq_self (s := s.append _) hp ▸ h.append_goto_inFrame hlen _
  | inFrameEscapeSeen =>
    rw [hp] at hrow
    cases c with
    | escape => cases hrow; exact h.append_goto_inFrame hlen Config.esc
    | start => cases hrow; exact h.clearBuf_goto .inFrame
    | endMark => cases (exec_inframeescEnd s).symm.trans hrow; exact h.complete
    | other => cases hrow; exact h.clearBuf_goto .idle

/-- A byte transaction below the bound is one transition (R101). -/
theorem byteTransaction_boundaryInv_of_le {b : Byte} (h : BoundaryInv s) (hlen : s.buf.length ≤ s.bufMax)
    (ht : byteTransaction b s = .next t) : BoundaryInv t := by
  rw [byteTransaction_of_le b hlen] at ht
  obtain ⟨u, hu, hnext⟩ := andThen_eq_next ht
  cases hnext
  exact exec_opcodeMap_boundaryInv (t := u) h hlen hu

/-- A byte transaction above the bound is one after the hard reset, which keeps the invariant (R102). -/
theorem byteTransaction_boundaryInv {b : Byte} (h : BoundaryInv s) (ht : byteTransaction b s = .next t) :
    BoundaryInv t := by
  by_cases hlen : s.bufMax < s.buf.length
  · have hreset : BoundaryInv (s.hardReset.discard .overflow) := h.clearBuf_goto .idle
    exact byteTransaction_boundaryInv_of_le hreset (Nat.zero_le _) ((byteTransaction_of_lt b hlen).symm.trans ht)
  · exact byteTransaction_boundaryInv_of_le h (Nat.not_lt.mp hlen) ht

/-- Of the host's actions only an acceptance and `rst` touch the block (R232, R250). -/
theorem hostEvent_boundaryInv {e : HostEvent} (h : BoundaryInv s) (ht : hostEvent e s = .next t) : BoundaryInv t := by
  cases e with
  | feed chunk => cases ht; exact h
  | accept =>
    cases ht
    split
    · exact h.accept
    · exact h
  | ready level => cases ht; split <;> exact h
  | attach => cases ht; split <;> exact h
  | readStatus k =>
    obtain ⟨r, _, _, rfl⟩ := execIsset_eq_next ht
    exact h
  | readRecord =>
    obtain ⟨r, _, _, rfl⟩ := readOutRecord_eq_next ht
    exact h
  | rst => cases ht; exact boundaryInv_of_buf_eq_nil rfl rfl rfl rfl

theorem hostTurn_boundaryInv (h : BoundaryInv s) (ht : hostTurn s = .next t) : BoundaryInv t := by
  obtain ⟨_, hs⟩ | ⟨a, es, _, hs⟩ := hostTurn_cases s
  · cases hs.symm.trans ht; exact h
  · exact hostEvent_boundaryInv (s := s.setEvents es) h (hs.symm.trans ht)

end

/-- Settles O41, by the kinds of event a step can be: the host's turn, an acceptance, or a byte transaction. -/
theorem everyStepKeepsTheInvariant : Obligations.EveryStepKeepsTheInvariant := by
  intro s t h ht
  obtain ⟨_, hs⟩ | ⟨_, _, _, hs⟩ | ⟨_, _, b, rest, _, hs⟩ | ⟨_, _, hs⟩ := cycle_cases s
  · exact hostTurn_boundaryInv h (hs.symm.trans ht)
  · cases hs.symm.trans ht; exact h.accept
  · exact byteTransaction_boundaryInv (s := s.setInPort rest) h (hs.symm.trans ht)
  · exact hostTurn_boundaryInv h (hs.symm.trans ht)

/-! ### A frame sent while an escape is pending outside a frame (R254) -/

section
variable {s : State} {rest : List Byte}

/-- A pair of `ESC` and a byte that is `ESC` or `END` passes over a block in `Idle` (R107, R109). -/
theorem steps_dropped_pair {b : Byte} (hb : b = Config.esc ∨ b = Config.endMarker) (h : Listening s)
    (hp : s.parser = .idle) (hlen : s.buf.length ≤ s.bufMax) (hport : s.inPort = Config.esc :: b :: rest) :
    steps 2 s = .next (s.advance 2 rest .idle s.buf) := by
  have hesc : step s = .next (s.advance 1 (b :: rest) .escapeSeen s.buf) :=
    step_advance h hport hlen (by rw [hp]; rfl)
  have hsecond : step (s.advance 1 (b :: rest) .escapeSeen s.buf) = .next (s.advance 2 rest .idle s.buf) :=
    step_advance (h.advance ..) rfl hlen (by obtain rfl | rfl := hb <;> rfl)
  rw [steps_succ 1 hesc, steps_one, hsecond]

/-- The escaped bytes of a frame pass over a block in `Idle`: no doubled `ESC` opens a frame (R106, R107). -/
theorem steps_escaped_ignored (f : List Byte) (h : Listening s) (hp : s.parser = .idle)
    (hlen : s.buf.length ≤ s.bufMax) (hport : s.inPort = escaped f ++ rest) :
    steps (escaped f).length s = .next (s.advance (escaped f).length rest .idle s.buf) := by
  induction f generalizing s with
  | nil => exact steps_ignored (js := []) h hp hlen (by simp) hport
  | cons b f ih =>
    rw [escaped_cons, List.append_assoc] at hport
    have hfirst : steps (escaped [b]).length s =
        .next (s.advance (escaped [b]).length (escaped f ++ rest) .idle s.buf) := by
      by_cases hb : b = Config.esc
      · subst hb
        exact steps_dropped_pair (.inl rfl) h hp hlen hport
      · have hsingle : escaped [b] = [b] := if_neg hb
        rw [hsingle] at hport ⊢
        exact steps_ignored h hp hlen (by simpa using hb) hport
    rw [escaped_cons, List.length_append, steps_add _ hfirst, ih (h.advance ..) rfl hlen rfl]
    simp [State.advance, Nat.add_assoc]

end

/-- Settles O53: the first `ESC` of the wire form ends the pending escape, `START` and the frame's bytes are scanned in
`Idle`, and the last pair is dropped there. -/
theorem danglingEscapeLosesTheNextFrame : Obligations.DanglingEscapeLosesTheNextFrame := by
  intro f rest s hfirst hp hbuf hpend hport
  have h : Listening s := ⟨hfirst, hpend⟩
  have hlen : s.buf.length ≤ s.bufMax := by rw [hbuf]; exact Nat.zero_le _
  have hraw : rawFrame f = Config.esc :: (escaped (Config.startMarker :: f) ++ [Config.esc, Config.endMarker]) := rfl
  have hwire : (rawFrame f).length = 1 + ((escaped (Config.startMarker :: f)).length + 2) := by
    rw [hraw, List.length_cons, List.length_append, Nat.add_comm]
    rfl
  rw [hraw, List.cons_append, List.append_assoc] at hport
  have hpaired := step_advance (p := .idle) (m := s.buf) h hport hlen (by rw [hp]; rfl)
  have hidle := h.advance (rest := escaped (Config.startMarker :: f) ++ ([Config.esc, Config.endMarker] ++ rest)) 1
    .idle s.buf
  have hbody := steps_escaped_ignored (Config.startMarker :: f) hidle rfl hlen rfl
  have hclose := steps_dropped_pair (rest := rest) (.inr rfl)
    (hidle.advance (escaped (Config.startMarker :: f)).length .idle s.buf) rfl hlen rfl
  rw [hwire, steps_add _ ((steps_one s).trans hpaired), steps_add _ hbody]
  refine hclose.trans ?_
  simp [State.advance, Nat.add_assoc]

/-! ### The host's reset (R250) -/

/-- Settles O43: an `rst` is the step where it comes first or nothing else is possible, and it delivers nothing. -/
theorem resetEventClearsTheBlock : Obligations.ResetEventClearsTheBlock := by
  refine ⟨fun s es he => ?_, fun s es hstalled he => ?_, fun s t first es he ht => ?_⟩
  · rw [step_of_hostFirst (hostFirst_of_rst he), hostTurn_of_cons he]
    rfl
  · exact step_of_hostAction (.inr hstalled) he
  · rw [hostTurn_of_cons he] at ht
    cases ht
    rfl

end Sys2Proof.Machine
end
